-- ==== Sys2Proof/Word.lean ====
section
/-! DEFINITION. The word types of Jaset: bytes and the register and address widths of the manual. -/
namespace Sys2Proof

/-- One byte, the smallest addressable unit of HBM and of clause SRAM. -/
abbrev Byte := BitVec 8

/-- A 32-bit register or element. -/
abbrev Word32 := BitVec 32

/-- A 64-bit register or element. -/
abbrev Word64 := BitVec 64

end Sys2Proof
end

