-- ==== Sys2Proof/Config.lean ====
section
/-! DEFINITION. What one part or its maker fixes, and the free values: constants without a body, about which
nothing can be proved but that they are some value (log entries 9, 10, 11). -/
namespace Sys2Proof.Config

/-- A bit the manual leaves open, drawn at a counter of State: the outcome of an analogue latch (R185, R204). -/
opaque freeBit : Nat → Bool

/-- A 64-bit value the manual leaves open, drawn at a counter of State. -/
opaque free64 : Nat → BitVec 64

/-- An integer the manual leaves open, drawn at a counter of State (a sum of mismatched gang rows, R595). -/
opaque freeInt : Nat → Int

/-- A byte the manual leaves open, drawn at a counter of State (randomised padding, message layout, R373). -/
opaque freeByte : Nat → BitVec 8

/-- Falcon-1024: the encoded public key that a 48-byte seed gives (R449, R451). -/
opaque falconPublic : List (BitVec 8) → List (BitVec 8)

/-- Falcon-1024 in the padded 1,280-byte format (R436): the signature made from a seed, over a message, with the
randomness of that signing. -/
opaque falconSign : List (BitVec 8) → Nat → List (BitVec 8) → List (BitVec 8)

/-- Falcon-1024 verification of a signature over a message under an encoded public key (R44, R436). -/
opaque falconVerify : List (BitVec 8) → List (BitVec 8) → List (BitVec 8) → Bool

/-- ML-KEM-1024: the encapsulation-key check of FIPS 203 (R466). -/
opaque mlkemCheck : List (BitVec 8) → Bool

/-- ML-KEM-1024: the encapsulation key made from 64 bytes of seed (R359). -/
opaque mlkemPublic : List (BitVec 8) → List (BitVec 8)

/-- ML-KEM-1024 encapsulation: the ciphertext for a key and 32 bytes of randomness (R466). -/
opaque mlkemCipher : List (BitVec 8) → List (BitVec 8) → List (BitVec 8)

/-- ML-KEM-1024 encapsulation: the shared secret for a key and 32 bytes of randomness (R467). -/
opaque mlkemSecret : List (BitVec 8) → List (BitVec 8) → List (BitVec 8)

/-- ML-KEM-1024 decapsulation: the shared secret of a seed and a ciphertext (R359). -/
opaque mlkemDecaps : List (BitVec 8) → List (BitVec 8) → List (BitVec 8)

/-- The exchange transcript of a link's key set-up (R359, R360), of the lower and the higher end's first messages and the
ciphertexts it covers: the manual gives no layout. -/
opaque linkTranscript : List (BitVec 8) → List (BitVec 8) → List (List (BitVec 8)) → List (BitVec 8)

/-- The device serial, 16 bytes (R452). -/
opaque serial : List (BitVec 8)

/-- The identity seed, 48 bytes, drawn at manufacture (R449). -/
opaque identitySeed : List (BitVec 8)

/-- The public key that the device certificate holds, 1,793 bytes (R452). -/
opaque deviceKey : List (BitVec 8)

/-- Odlor's JEP106 code in IDCODE (R525). -/
opaque jep106 : BitVec 11

/-- Cells of the boundary-scan register, which the BSDL file describes (R525). -/
opaque boundaryCells : Nat

/-- When the device certificate was issued, in seconds (R452). -/
opaque deviceIssued : BitVec 64

/-- The CA's signature on the device certificate, 1,280 bytes (R452). -/
opaque deviceSig : List (BitVec 8)

/-- The serial of the Odlor device CA, 16 bytes (R452). -/
opaque caSerial : List (BitVec 8)

/-- The public key that the CA certificate holds, 1,793 bytes (R452). -/
opaque caKey : List (BitVec 8)

/-- When the CA certificate was issued, in seconds (R452). -/
opaque caIssued : BitVec 64

/-- The root's signature on the CA certificate, 1,280 bytes (R452). -/
opaque caSig : List (BitVec 8)

/-- The key ID of Odlor's root (R453). -/
opaque rootKeyId : List (BitVec 8)

/-- Odlor's root public key, against which a CA certificate verifies (R453). -/
opaque rootKey : List (BitVec 8)

/-- The Odlor firmware public key whose key ID the boot ROM holds (R549). -/
opaque firmwareKey : List (BitVec 8)

/-- The Odlor debug-authority public keys whose key IDs the boot ROM holds (R487). -/
opaque debugKeys : List (List (BitVec 8))

/-- The boot ROM's bytes, which attestation digests (R461). -/
opaque bootRom : List (BitVec 8)

/-- The manifest of the firmware the part was shipped with (R461, R549). -/
opaque shippedManifest : List (BitVec 8)

/-- The CAL_TRIM word that a base calibration table, as part 6 of an image carries it, gives a tile and unit (R234, R235,
R549): the manual gives the part no layout. -/
opaque baseTrim : List (BitVec 8) → Nat → Nat → BitVec 32

/-- The code that PWR_STAT gives a hottest tile below 0 °C, by its temperature in 0.25 °C (R512): the manual states none. -/
opaque hotCode : Int → BitVec 8

/-- The APT and RCT cutoffs that entropy health parameters, as part 7 of an image carries them, ask for (R260, R549): the
manual gives the part no layout. -/
opaque healthParams : List (BitVec 8) → Nat × Nat

/-- The figures that a lane record holds beyond its lane number, state and rate (R522), its bytes 0x04 to 0x2F, drawn at a counter of State:
lane group, lane. -/
opaque laneRecord : Nat → Nat → Nat → List (BitVec 8)

/-- What one steward instruction does to the steward's own state (R534): the manual gives no instruction set. -/
opaque stewardNext : BitVec 64 → BitVec 64

end Sys2Proof.Config
end

