-- ==== Sys2Proof/Syntax.lean ====
section
/-! DEFINITION. The commands of the block: one constructor of Instr per row of spec/opcode_table.json, and the
types of their operands. What the outside world supplies to a step (data read from host memory, sensor readings, raw
entropy bits, link groups, measured figures) is an operand of its command (log entry 1, DESIGN CHOICE). -/
namespace Sys2Proof

/-- The two halves (01): West is half 0, East is half 1. -/
inductive Half where
  | west | east
  deriving DecidableEq, Repr

/-- The fields of a sequencer instruction below its opcode (R155). -/
structure Fields where
  pr : BitVec 3 := 0
  pn : BitVec 1 := 0
  d : BitVec 5 := 0
  a : BitVec 5 := 0
  b : BitVec 5 := 0
  c : BitVec 5 := 0
  imm : BitVec 32 := 0
  deriving DecidableEq, Repr

/-- What a device read of host memory returned: the bytes, or the failing bus address (12, HOST_ERR). -/
inductive HostRead where
  | ok (data : List Byte)
  | fail (addr : Nat)
  deriving DecidableEq, Repr

/-- An access at an HBM controller (R590). -/
inductive HbmAcc where
  | read (n : Nat)
  | write (data : List Byte)
  deriving DecidableEq, Repr

/-- What the stack did with it (R393). -/
inductive HbmEvent where
  | clean
  | corrected
  | uncorrected
  | parityLost
  deriving DecidableEq, Repr

/-- A check that Jaset computes on two paths (R484): a signature, the tag of a record or a group, an unlock token, the tag of
key-store entry k. -/
inductive Check where
  | signature | tag | token
  | entry (k : Nat)
  deriving DecidableEq, Repr

/-- A temperature sensor (R476): a tile's, or the vigil domain's own. -/
inductive Sensor where
  | tile (t : Nat)
  | vigil
  deriving DecidableEq, Repr

/-- A reading of a temperature sensor, in °C (R476). -/
structure SensorTemp where
  sensor : Sensor
  temp : Int
  deriving DecidableEq, Repr

/-- What the light sensors show, and what an injection by light or field upsets: the checks whose two paths disagree the
next time they are made (R476, R484; log entry 102, DESIGN CHOICE). -/
structure LightSense where
  present : Bool
  upset : List Check
  deriving DecidableEq, Repr

/-- What a vigil wake samples besides the mesh: the vigil sensor in °C, and the key-store entries that a retention fault on
VSTBY has struck since (R456, R499, R504; log entry 102, DESIGN CHOICE). -/
structure VigilSense where
  temp : Int
  torn : List Nat
  deriving DecidableEq, Repr

/-- A telemetry answer of the regulators (R225, R579): the half's rail and VDD_ANA in mV, and VOUT_UV; with it the key-store
entries that a retention fault on VSTBY has struck since (R456, R504; log entry 102, DESIGN CHOICE). -/
structure Telemetry where
  vout : Nat
  vana : Nat
  uv : Bool
  torn : List Nat
  deriving DecidableEq, Repr

/-- What a calibration measures of one osier unit (R221-R223): the counts of +1 latches at the ten points of step 2 and the
five points of step 5 (2h = -3.5, -1.5, +1.5, +3.5, then 0), and the estimates for which the manual gives no formula: the
required gain factor and correction of the coupling gain, the correlations and the coupling error, in units of 2^-16, and
the codes of CAL_TRIM (R235) that steps 3 and 4 set (log entry 72). -/
structure UnitMeas where
  offs : List Nat
  verify : List Nat
  gain : Nat
  gainCode : BitVec 8
  jcorr : Int
  jCode : BitVec 6
  acorr : Nat
  ncorr : Nat
  jerr : Nat
  deriving DecidableEq, Repr

/-- What a calibration measures: the ratio of the two slopes in units of 2^-16, the units measured one by one, and what every
further unit shows. -/
structure CalMeas where
  betaRatio : Nat
  units : List UnitMeas
  rest : UnitMeas
  deriving DecidableEq, Repr

/-- The two continuous health tests (R258). -/
inductive HealthTest where
  | rct | apt
  deriving DecidableEq, Repr

/-- One fold group on a link or in a router (R330, R340): base, 64 values, flags. A pass-1 group's values are the
exponents ε (R337). -/
structure Group where
  base : Nat
  vals : List Int
  nan : BitVec 64
  pinf : BitVec 64
  ninf : BitVec 64
  sat : Bool
  deriving DecidableEq, Repr

/-- The rows of a whole DMA transfer: the first one's address, how many there are, their distance, their bytes. -/
structure RowSpan where
  base : Nat
  rows : Nat
  stride : Nat
  bytes : Nat
  deriving DecidableEq, Repr

/-- What a message that crosses a link asks or answers (R376-R382): a row's request carries the rows of its whole transfer,
which is refused whole (R379); a `done` says whether an atomic was held at its guard bound, an `uncorr` carries what a
struck read returns; a `halfAsleep` gives the first address that met the sleeping half, whether the awake half's part
met an uncorrected error, and that part of a read (R324, R325; log entry 14, DESIGN CHOICE). -/
inductive LinkBody where
  | dmaWrite (clause addr : Nat) (data : List Byte) (all : RowSpan)
  | dmaRead (clause addr n : Nat) (all : RowSpan)
  | atomic (clause addr : Nat) (code : BitVec 3) (operand : Int)
  | readResp (data : List Byte)
  | done (held : Bool)
  | refused
  | halfAsleep (addr : Nat) (struck : Bool) (data : List Byte)
  | uncorr (data : List Byte)
  | foldGroup (slot pass : Nat) (g : Group)
  | foldExp (slot : Nat) (base : Nat) (exps : List Int)
  | control (data : List Byte)
  | management (data : List Byte)
  deriving DecidableEq, Repr

/-- A message with its route header (R373), the number that ties a response to its request, and its bytes as it crosses
the link (log entry 14, DESIGN CHOICE); at the receiver also the frame buffer it holds until the core takes it, as the
frame's number and channel (R366). -/
structure Msg where
  id : Nat
  vc : BitVec 2
  resp : Bool
  dst : Nat
  dstNode : Nat
  src : Nat
  srcNode : Nat
  body : LinkBody
  wire : List Byte
  buf : Option (BitVec 16 × Nat)
  deriving DecidableEq, Repr

/-- The bytes of a message as it crosses a link, after its route header: the manual gives no layout (R373; log
entry 14, DESIGN CHOICE). -/
opaque Config.msgWire : Msg → List Byte

/-- The message that stands first in such bytes and how many of them it takes, where a whole one does (log entry 14, DESIGN
CHOICE). -/
opaque Config.wireNext : List Byte → Option (Msg × Nat)

/-- The message that such bytes spell, where they spell one. -/
def wireMsg (l : List Byte) : Option Msg := (Config.wireNext l).map (·.1)

/-- A frame (R353): the header's fields, and the payload bytes as they stand on the wire. -/
structure Frame where
  fsn : BitVec 16
  ack : BitVec 16
  vc : BitVec 2
  cls : Bool
  resp : Bool
  kind : BitVec 2
  last : Bool
  epoch : Bool
  len : BitVec 7
  credits : BitVec 9
  payload : List Byte
  deriving DecidableEq, Repr

/-- A group as received (R355): its frames, its tag, whether its codewords were correctable. -/
structure RxGroup where
  frames : List Frame
  tag : List Byte
  fecOk : Bool
  deriving DecidableEq, Repr

/-- A hello on VC3 (step 5 of link bring-up). -/
structure Hello where
  devId : BitVec 16
  role : BitVec 8
  protect : Bool
  keyId : List Byte
  deriving DecidableEq, Repr

/-- The peer's key set-up messages (R359). -/
inductive KeyMsg where
  | step1 (cert ca report nonce ek : List Byte)
  | step2 (ct sig : List Byte)
  deriving DecidableEq, Repr

/-- What stands on lane 0 before a wake detector (R384, R385): 32 keyed bits, the first to arrive highest, or a mark
that has lasted so many µs. -/
inductive WakeSignal where
  | pattern (bits : BitVec 32)
  | mark (us : Nat)
  deriving DecidableEq, Repr

/-- What the board, the stacks and the flash show a power-up (R509, R511, R563): RECOVERY_N, the PCIe link's generation,
width and mode, each stack's trained rate (0 for one that does not train), whether the digests of each slot verify,
whether the seed decrypts (R450), and whether the firmware booted reaches READY
(R561). -/
structure BootIn where
  recoveryN : Bool
  pcieGen : Nat
  pcieWidth : Nat
  pcieFlit : Bool
  rates : List Nat
  slotOk : Bool × Bool
  identityOk : Bool
  starts : Bool
  deriving DecidableEq, Repr

/-- A phase of a plait-bus symbol that the other party drives (R514, R515): the levels of PL_D0 and PL_D1, or of PL_ACK. -/
inductive PlaitEv where
  | rails (d0 d1 : Bool)
  | ack (up : Bool)
  deriving DecidableEq, Repr

/-- What a debugger does to the TAP (R525): TRST_N low; a scan of the instruction register; a scan of the selected data
register with these bits on TDI, the first to be shifted first, from Capture-DR to Update-DR. -/
inductive TapScan where
  | trst
  | ir (code : BitVec 8)
  | dr (tdi : List Bool)
  deriving DecidableEq, Repr

/-- What a register write reaches (R397, R398, R401): BAR0, with an access of so many bytes; the size of BAR2 in the
function's Resizable BAR capability, as a power of two; its AER uncorrectable error status. -/
inductive RegAcc where
  | bar0 (bytes : Nat)
  | bar2Size
  | aerStatus
  deriving DecidableEq, Repr

/-- What a stack shows its PHY as it refreshes (R391): the temperature readout in °C, and the errors that its error check
and scrub has counted since the last such reading. -/
structure HbmSense where
  temp : Nat
  scrub : Nat
  deriving DecidableEq, Repr

/-- The commands, in the order of spec/opcode_table.json. -/
inductive Instr where
  /-- REGISTER_WRITE (R11). -/
  | registerWrite (off : Nat) (acc : RegAcc) (val : BitVec 64)
  /-- COMMAND_FETCH (R406). -/
  | commandFetch (q : Nat) (data : HostRead)
  /-- SUBMISSION_DOORBELL (R405). -/
  | submissionDoorbell (off : Nat) (val : BitVec 32)
  /-- COMPLETION_DOORBELL (R407). -/
  | completionDoorbell (off : Nat) (val : BitVec 32)
  /-- QUEUE_ENABLE (R405). -/
  | queueEnable (q : Nat) (val : BitVec 32)
  /-- QUEUE_DISABLE (R408). -/
  | queueDisable (q : Nat) (val : BitVec 32)
  /-- COMPLETION_RECORD_WRITE (R407). -/
  | completionRecordWrite (id : Nat)
  /-- LOAD_WEAVE (R65). -/
  | loadWeave (id : Nat) (strike : Option Nat)
  /-- APPLY_WEAVE (R70). -/
  | applyWeave (id : Nat) (strike : Option Nat)
  /-- LAUNCH (R133). -/
  | launch (id : Nat)
  /-- COPY (R412). -/
  | copy (id : Nat) (data : HostRead)
  /-- SAVE_CTX (R417). -/
  | saveCtx (id : Nat)
  /-- RESTORE_CTX (R420). -/
  | restoreCtx (id : Nat)
  /-- SANITIZE (R471). -/
  | sanitize (id : Nat)
  /-- ATTEST (R460). -/
  | attest (id : Nat)
  /-- SESSION_OPEN (R466). -/
  | sessionOpen (id : Nat)
  /-- SESSION_CLOSE (R470). -/
  | sessionClose (id : Nat)
  /-- FW_STAGE (R551). -/
  | fwStage (id : Nat) (readBackOk : Bool) (refusals : BitVec 4)
  /-- FW_ACTIVATE (R557). -/
  | fwActivate (id : Nat) (flashOk loadOk : Bool)
  /-- FW_ACTIVATE_AT_NEXT_START (R560). -/
  | fwActivateAtNextStart (id : Nat)
  /-- FW_CONFIRM (R562). -/
  | fwConfirm (id : Nat)
  /-- TRANSCRIPT_START (R443). -/
  | transcriptStart (id : Nat)
  /-- TRANSCRIPT_STOP (R443). -/
  | transcriptStop (id : Nat)
  /-- REPLAY (R446). -/
  | replay (id : Nat)
  /-- POWER_STATE (R498). -/
  | powerState (id : Nat)
  /-- HALF_POWER_OFF (R494). -/
  | halfPowerOff (id : Nat)
  /-- HALF_POWER_ON (R496). -/
  | halfPowerOn (id : Nat)
  /-- TALLY_CFG (R543). -/
  | tallyCfg (id : Nat)
  /-- ENTROPY_READ (R272). -/
  | entropyRead (id : Nat) (fail : Option Nat)
  /-- BAR2_WRITE (R399). -/
  | bar2Write (off : Nat) (data : List Byte)
  /-- WEAVE_READBACK (R78). -/
  | weaveReadback
  /-- PHRASE_START (R137). -/
  | phraseStart (t : Nat)
  /-- LOAD_BALANCE_TAKE (R140). -/
  | loadBalanceTake (t : Nat)
  /-- CLAUSE_RUN_COMPLETE (R139). -/
  | clauseRunComplete (c : Nat)
  /-- NOP (R155). -/
  | nop (t p : Nat) (f : Fields)
  /-- BR (R158). -/
  | br (t p : Nat) (f : Fields)
  /-- BRZ (R158). -/
  | brz (t p : Nat) (f : Fields)
  /-- BRNZ (R158). -/
  | brnz (t p : Nat) (f : Fields)
  /-- BRANY (R156). -/
  | brany (t p : Nat) (f : Fields)
  /-- BRALL (R156). -/
  | brall (t p : Nat) (f : Fields)
  /-- LOOP (R159). -/
  | loop (t p : Nat) (f : Fields)
  /-- PLAUNCH (R134). -/
  | plaunch (t p : Nat) (f : Fields)
  /-- PEND (R138). -/
  | pend (t p : Nat) (f : Fields)
  /-- SMOV (R155). -/
  | smov (t p : Nat) (f : Fields)
  /-- SMOVH (R155). -/
  | smovh (t p : Nat) (f : Fields)
  /-- SALU (R155). -/
  | salu (t p : Nat) (f : Fields)
  /-- SALUI (R155). -/
  | salui (t p : Nat) (f : Fields)
  /-- SRD (R142). -/
  | srd (t p : Nat) (f : Fields)
  /-- VFLAGS (R129). -/
  | vflags (t p : Nat) (f : Fields)
  /-- UTRAP (R176). -/
  | utrap (t p : Nat) (f : Fields)
  /-- VLD (R160). -/
  | vld (t p : Nat) (f : Fields)
  /-- VST (R160). -/
  | vst (t p : Nat) (f : Fields)
  /-- VLDX (R594). -/
  | vldx (t p : Nat) (f : Fields)
  /-- VSTX (R594). -/
  | vstx (t p : Nat) (f : Fields)
  /-- SLD (R160). -/
  | sld (t p : Nat) (f : Fields)
  /-- SST (R160). -/
  | sst (t p : Nat) (f : Fields)
  /-- SLDW (R160). -/
  | sldw (t p : Nat) (f : Fields)
  /-- DMA (R148). -/
  | dma (t p : Nat) (f : Fields)
  /-- DMA_TRANSFER_COMPLETE (R151). -/
  | dmaTransferComplete (t p tag : Nat)
  /-- DMAW (R151). -/
  | dmaw (t p : Nat) (f : Fields)
  /-- PREF (R144). -/
  | pref (t p : Nat) (f : Fields)
  /-- AOPEN (R98). -/
  | aopen (t p : Nat) (f : Fields)
  /-- ALDH (R89). -/
  | aldh (t p : Nat) (f : Fields)
  /-- HELD_LOAD_COMPLETE (R89). -/
  | heldLoadComplete (t : Nat)
  /-- AMAC (R162). -/
  | amac (t p : Nat) (f : Fields)
  /-- ADRN (R102). -/
  | adrn (t p : Nat) (f : Fields)
  /-- GANG_COMBINE (R342). -/
  | gangCombine (t : Nat)
  /-- VADD (R110). -/
  | vadd (t p : Nat) (f : Fields)
  /-- VSUB (R110). -/
  | vsub (t p : Nat) (f : Fields)
  /-- VMUL (R110). -/
  | vmul (t p : Nat) (f : Fields)
  /-- VFMA (R110). -/
  | vfma (t p : Nat) (f : Fields)
  /-- VDIV (R110). -/
  | vdiv (t p : Nat) (f : Fields)
  /-- VSQRT (R110). -/
  | vsqrt (t p : Nat) (f : Fields)
  /-- VMIN (R114). -/
  | vmin (t p : Nat) (f : Fields)
  /-- VMAX (R114). -/
  | vmax (t p : Nat) (f : Fields)
  /-- VCMP (R114). -/
  | vcmp (t p : Nat) (f : Fields)
  /-- VSEL (R156). -/
  | vsel (t p : Nat) (f : Fields)
  /-- VCVT (R116). -/
  | vcvt (t p : Nat) (f : Fields)
  /-- VBX (R118). -/
  | vbx (t p : Nat) (f : Fields)
  /-- VUBX (R116). -/
  | vubx (t p : Nat) (f : Fields)
  /-- VRED (R121). -/
  | vred (t p : Nat) (f : Fields)
  /-- VTRN (R164). -/
  | vtrn (t p : Nat) (f : Fields)
  /-- VMOV (R156). -/
  | vmov (t p : Nat) (f : Fields)
  /-- VINT (R156). -/
  | vint (t p : Nat) (f : Fields)
  /-- VPRED (R156). -/
  | vpred (t p : Nat) (f : Fields)
  /-- VLANE (R156). -/
  | vlane (t p : Nat) (f : Fields)
  /-- VXS (R156). -/
  | vxs (t p : Nat) (f : Fields)
  /-- OSEL (R195). -/
  | osel (t p : Nat) (f : Fields)
  /-- ORUN (R195). -/
  | orun (t p : Nat) (f : Fields)
  /-- STRAND_PHASE_COMPLETE (R194). -/
  | strandPhaseComplete (t : Nat)
  /-- PHASE_STOP_RELEASE (R201). -/
  | phaseStopRelease (t : Nat)
  /-- SPIN_EVENT (R200). -/
  | spinEvent (k : Nat)
  /-- FREE_RUN_LATCH (R204). -/
  | freeRunLatch (t unit : Nat) (together : List Nat)
  /-- ORD (R197). -/
  | ord (t p : Nat) (f : Fields)
  /-- OWF (R197). -/
  | owf (t p : Nat) (f : Fields)
  /-- OBANK (R190). -/
  | obank (t p : Nat) (f : Fields)
  /-- OBANK_LOAD_COMPLETE (R190). -/
  | obankLoadComplete (t : Nat)
  /-- OSWAP (R192). -/
  | oswap (t p : Nat) (f : Fields)
  /-- OBIAS (R197). -/
  | obias (t p : Nat) (f : Fields)
  /-- OSS (R197). -/
  | oss (t p : Nat) (f : Fields)
  /-- NLD (R168). -/
  | nld (t p : Nat) (f : Fields)
  /-- NRD (R168). -/
  | nrd (t p : Nat) (f : Fields)
  /-- NWR (R168). -/
  | nwr (t p : Nat) (f : Fields)
  /-- RDRAW (R290). -/
  | rdraw (t p : Nat) (f : Fields)
  /-- RCTX (R169). -/
  | rctx (t p : Nat) (f : Fields)
  /-- RDROP (R290). -/
  | rdrop (t p : Nat) (f : Fields)
  /-- ARRIVE (R153). -/
  | arrive (t p : Nat) (f : Fields)
  /-- STOP_GENERATION_COMPLETE (R328). -/
  | stopGenerationComplete (c stop : Nat)
  /-- WAIT (R154). -/
  | wait (t p : Nat) (f : Fields)
  /-- STOPN (R152). -/
  | stopn (t p : Nat) (f : Fields)
  /-- FSEND (R330). -/
  | fsend (t p : Nat) (f : Fields)
  /-- FOLD_GROUP_COMBINE (R331). -/
  | foldGroupCombine (slot node pass : Nat)
  /-- FOLD_EXPONENT_BROADCAST (R337). -/
  | foldExponentBroadcast (slot : Nat)
  /-- FRECV (R334). -/
  | frecv (t p : Nat) (f : Fields)
  /-- ATOM (R343). -/
  | atom (t p : Nat) (f : Fields)
  /-- HBM_ATOMIC (R343). -/
  | hbmAtomic (k : Nat)
  /-- HBM_ACCESS (R590). -/
  | hbmAccess (addr : Nat) (acc : HbmAcc) (ev : HbmEvent)
  /-- HBM_REFRESH (R497). -/
  | hbmRefresh (stack : Nat) (sense : HbmSense)
  /-- TRD (R172). -/
  | trd (t p : Nat) (f : Fields)
  /-- TMARK (R540). -/
  | tmark (t p : Nat) (f : Fields)
  /-- HOLD (R173). -/
  | hold (t p : Nat) (f : Fields)
  /-- REMOTE_ACCESS (R379). -/
  | remoteAccess (n : Nat) (m : Msg)
  /-- TJ_SAMPLE (R225). -/
  | tjSample (t : Nat) (tj : Int)
  /-- TELEMETRY_READ (R225). -/
  | telemetryRead (h : Half) (reading : Option Telemetry)
  /-- CALIBRATION_START (R228). -/
  | calibrationStart (t : Nat)
  /-- CALIBRATION_COMPLETE (R223). -/
  | calibrationComplete (t : Nat) (m : CalMeas)
  /-- SPOT_CHECK_START (R229). -/
  | spotCheckStart (t : Nat)
  /-- SPOT_CHECK_COMPLETE (R229). -/
  | spotCheckComplete (t : Nat) (dev : Nat)
  /-- CAL_CMD_START (R231). -/
  | calCmdStart (t : Nat)
  /-- CAL_CMD_SPOT (R235). -/
  | calCmdSpot (t : Nat)
  /-- THROTTLE_STEP (R502). -/
  | throttleStep (h : Half)
  /-- PWR_VSET_WRITE (R503). -/
  | pwrVsetWrite (val : BitVec 32)
  /-- THERMTRIP (R583). -/
  | thermtrip
  /-- ENTROPY_BLOCK_COMPLETE (R262). -/
  | entropyBlockComplete (cell : Nat) (raw : List Byte)
  /-- HEALTH_TEST_FAIL (R264). -/
  | healthTestFail (cell : Nat) (test : HealthTest)
  /-- CELL_RETEST (R265). -/
  | cellRetest (cell : Nat)
  /-- STARTUP_TEST_COMPLETE (R265). -/
  | startupTestComplete (cell : Nat) (bits : List Byte)
  /-- ENT_FAIL_PERSIST (R270). -/
  | entFailPersist (h : Half)
  /-- HOP_CMD_RETEST (R266). -/
  | hopCmdRetest (h : Half)
  /-- HOP_CMD_CAPTURE (R277). -/
  | hopCmdCapture (h : Half)
  /-- RAW_CAPTURE_COMPLETE (R277). -/
  | rawCaptureComplete (h : Half) (bits : List Byte)
  /-- TKS_ENABLE (R297). -/
  | tksEnable (h : Half) (val : BitVec 32)
  /-- TKS_DISABLE (R306). -/
  | tksDisable (h : Half) (val : BitVec 32)
  /-- TKS_KICK (R298). -/
  | tksKick (h : Half)
  /-- TKS_TAIL_POLL (R298). -/
  | tksTailPoll (h : Half)
  /-- TKS_REQUEST (R303). -/
  | tksRequest (h : Half)
  /-- LINK_FRAME_TRANSMIT (R368). -/
  | linkFrameTransmit (n : Nat)
  /-- LINK_GROUP_RECEIVE (R355). -/
  | linkGroupReceive (n : Nat) (g : RxGroup)
  /-- LINK_NAK (R363). -/
  | linkNak (n : Nat) (fsn : BitVec 16)
  /-- LINK_TRANSIT (R376). -/
  | linkTransit (n : Nat)
  /-- LINK_TRAINING_COMPLETE (R352). -/
  | linkTrainingComplete (n : Nat) (laneBad : BitVec 8)
  /-- LINK_HELLO (R370). -/
  | linkHello (n : Nat) (hello : Hello)
  /-- LINK_KEY_SETUP_MESSAGE (R359). -/
  | linkKeySetupMessage (n : Nat) (m : KeyMsg)
  /-- LINK_KEY_SETUP_RETRY (R361). -/
  | linkKeySetupRetry (n : Nat)
  /-- GLK_CMD_REKEY (R362). -/
  | glkCmdRekey (n : Nat)
  /-- GLK_CMD_RETRAIN (R372). -/
  | glkCmdRetrain (n : Nat)
  /-- GLK_CMD_WAKE (R386). -/
  | glkCmdWake (n : Nat)
  /-- WAKE_PATTERN_TIMEOUT (R386). -/
  | wakePatternTimeout (n : Nat)
  /-- LINK_DOWN (R372). -/
  | linkDown (n : Nat)
  /-- LINK_HOLD_EXPIRE (R372). -/
  | linkHoldExpire (n : Nat)
  /-- LINK_SWITCH_OFF (R371). -/
  | linkSwitchOff (n : Nat)
  /-- LINK_WAKE_DETECT (R385). -/
  | linkWakeDetect (n : Nat) (w : WakeSignal) (cool : Bool)
  /-- FW_FORWARD_RECEIVE (R555). -/
  | fwForwardReceive (n : Nat) (image : List Byte) (readBackOk : Bool)
  /-- FW_FORWARD_ABANDON (R556). -/
  | fwForwardAbandon (i : Nat)
  /-- FW_RECOV_GO (R567). -/
  | fwRecovGo
  /-- FW_RECOV_FINISH (R567). -/
  | fwRecovFinish (readBackOk : Bool)
  /-- BOOT_READY_TIMEOUT (R561). -/
  | bootReadyTimeout
  /-- DBG_CHALLENGE (R486). -/
  | dbgChallenge
  /-- DBG_SUBMIT (R488). -/
  | dbgSubmit
  /-- DBG_LOCK (R489). -/
  | dbgLock
  /-- DBG_NONCE_EXPIRE (R486). -/
  | dbgNonceExpire
  /-- ALM_POLICY_WRITE (R480). -/
  | almPolicyWrite (val : BitVec 32)
  /-- ALM_CFG_WRITE (R480). -/
  | almCfgWrite (val : BitVec 32)
  /-- MESH_BREACH (R476). -/
  | meshBreach (present : Bool)
  /-- TEMPERATURE_OUT_OF_RANGE (R476). -/
  | temperatureOutOfRange (x : SensorTemp)
  /-- BACKSIDE_LIGHT (R476). -/
  | backsideLight (x : LightSense)
  /-- VIGIL_WAKE (R499). -/
  | vigilWake (mesh : Bool) (x : VigilSense)
  /-- PLAIT_WAKE (R500). -/
  | plaitWake (addr : BitVec 7) (cool : Bool)
  /-- COLD_RESET (R509). -/
  | coldReset (b : BootIn)
  /-- RESET_N_ASSERT (R510). -/
  | resetNAssert
  /-- FUNDAMENTAL_RESET (R507). -/
  | fundamentalReset
  /-- HOST_WARM_RESET (R507). -/
  | hostWarmReset (val : BitVec 32) (flr : Bool)
  /-- STBY_RESET_RELEASE (R511). -/
  | stbyResetRelease (plAddr : BitVec 3) (bootMode : BitVec 2)
  /-- PLAIT_TRANSACTION (R516). -/
  | plaitTransaction (evs : List PlaitEv)
  /-- PLAIT_RESPONSE_ABANDON (R519). -/
  | plaitResponseAbandon
  /-- MAILBOX_REQUEST (R522). -/
  | mailboxRequest (h : Half) (viaTap : Bool)
  /-- TAP_DBG_ACCESS (R526). -/
  | tapDbgAccess (x : TapScan)
  /-- TAP_DBG_CMD (R525). -/
  | tapDbgCmd (v : BitVec 3)
  /-- DBG_CTL_HOLD (R530). -/
  | dbgCtlHold (t : Nat) (val : BitVec 32)
  /-- DBG_CTL_STEP (R532). -/
  | dbgCtlStep (t : Nat) (val : BitVec 32)
  /-- STEWARD_HOLD (R534). -/
  | stewardHold (h : Half) (val : BitVec 32)
  /-- STEWARD_STEP (R534). -/
  | stewardStep (h : Half)
  /-- TLY_CLEAR (R536). -/
  | tlyClear
  /-- TILE_TALLY_CLEAR (R536). -/
  | tileTallyClear (t : Nat)
  /-- TLY_DUMP_NOW (R545). -/
  | tlyDumpNow
  /-- TALLY_DUMP (R545). -/
  | tallyDump
  /-- STBY_RESET_ASSERT (R510). -/
  | stbyResetAssert
  /-- LINK_SIGNAL_DETECT (R370). -/
  | linkSignalDetect (n : Nat)
  /-- FAILED_BOOT_RESTART (R561). -/
  | failedBootRestart
  deriving DecidableEq, Repr

end Sys2Proof
end

