-- ==== Sys2Proof/Decode.lean ====
section
/-! DEFINITION. The commands a word spells: the opcode table gives its rows no bits, so no word spells one. -/
namespace Sys2Proof

/-- The command that a word spells by the table's bits. The table gives no row any bits. -/
def decodeTableWord (_nbits _w : Nat) : Option Instr := none

end Sys2Proof
end

