-- ==== Sys2Proof/Machine/Types.lean ====
section
/-! DEFINITION. The plain data that State is made of: the parsed weave, phrases, tiles and their units, folds, hoppers,
samplers, links, the security, alarm, firmware, debug and tally blocks. Each field names what the manual names. -/
namespace Sys2Proof.Machine

/-- A memory: address and byte pairs, addresses strictly rising, no byte 0 listed; an unlisted byte reads 0
(log entry 5, DESIGN CHOICE). -/
abbrev Mem := List Host.Cell

/-- The canonical form of a memory. -/
abbrev Mem.Wf (m : Mem) : Prop := m.Pairwise (fun x y => x.1 < y.1) ∧ ∀ c ∈ m, c.2 ≠ 0

/-! ## The weave (02) -/

/-- A CLAUSES record with its member list (R50). -/
structure ClauseRec where
  id : Nat
  gangA : Nat
  gangB : Nat
  members : List Nat
  deriving DecidableEq, Repr

/-- A ROUTES record: kind 1 flow, 2 neighbour window (R51). -/
structure RouteRec where
  kind : Nat
  clause : Nat
  network : Nat
  vc : Nat
  express : Nat
  src : Nat
  dst : Nat
  deriving DecidableEq, Repr

/-- A node-list entry: a node and its parent's index, 0xFFFF for the root (R52). -/
structure TreeNode where
  node : Nat
  parent : Nat
  deriving DecidableEq, Repr

/-- An MCAST record. -/
structure McastRec where
  tree : Nat
  clause : Nat
  network : Nat
  nodes : List TreeNode
  deriving DecidableEq, Repr

/-- A FOLDS record: kind 0 int32, 1 int64, 2 fp32, 3 bf16 two-pass, 4 fp32 fixed scale (R336). -/
structure FoldRec where
  slot : Nat
  clause : Nat
  kind : Nat
  scale : Int
  nodes : List TreeNode
  deriving DecidableEq, Repr

/-- A β table (R56, R188). -/
structure BetaTable where
  id : Nat
  roundsPer : Nat
  betas : List (BitVec 32)
  deriving DecidableEq, Repr

/-- An OSIER tile record: codes keyed 512 i + j. -/
structure OsierRec where
  tile : Nat
  strandCount : Nat
  betaTable : Nat
  strands : List Nat
  bias : List Int
  scale : List Nat
  codes : Mem
  deriving DecidableEq, Repr

/-- A bridge record (R55). -/
structure Bridge where
  ta : Nat
  tb : Nat
  ua : Nat
  ub : Nat
  code : Int
  scale : Nat
  deriving DecidableEq, Repr

/-- An ANCHORS record (R57): coefficients row by row, 512 + count to a row. -/
structure AnchorRec where
  tile : Nat
  count : Nat
  width : Nat
  strands : List Nat
  bias : List Int
  coef : List Int
  deriving DecidableEq, Repr

/-- A PROGRAMS record with its code (R58). -/
structure ProgRec where
  clause : Nat
  code : List (BitVec 64)
  entry : Nat
  deriving DecidableEq, Repr

/-- A MEMPLAN region (R59): kind 0 plain, 1 read-only, 2 atomic, 3 transcript ring, 4 tally ring, 5 context save. -/
structure Region where
  id : Nat
  kind : Nat
  clauses : BitVec 64
  base : Nat
  len : Nat
  deriving DecidableEq, Repr

/-- A PGKEYS record: its first 16 bytes' fields, the sealed bytes, and the key they open to (R60). -/
structure PgKeyRec where
  slot : Nat
  mask : BitVec 64
  nonce : List Byte
  cipher : List Byte
  tag : List Byte
  key : List Byte
  deriving DecidableEq, Repr

/-- A TALLY body (R535, R540). -/
structure TallyCfg where
  dedicated : Bool
  region : Nat
  period : Nat
  events : List Nat
  deriving DecidableEq, Repr

/-- A LINKS route entry (R591, R374). -/
structure RouteEntry where
  first : Nat
  last : Nat
  mask : BitVec 32
  deriving DecidableEq, Repr

/-- A LINKS body. -/
structure LinksRec where
  devId : Nat
  roles : List Nat
  fwNext : List Nat
  routes : List RouteEntry
  deriving DecidableEq, Repr

/-- A POLICY body. -/
structure Policy where
  det : Nat := 0
  loadBalance : Nat := 0
  tallyVisible : Nat := 0
  freeRun : Nat := 0
  staleCal : Nat := 0
  lock : Nat := 0
  maxLoose : Nat := 0
  deriving DecidableEq, Repr

/-- A weave as parsed: header fields that later steps use, then the sections. `raw` is header and body as loaded. -/
structure Weave where
  isPartial : Bool
  gradeMask : Nat
  tileSpan : Nat
  weaveId : List Byte
  baseDigest : List Byte
  bodyDigest : List Byte
  tiles : List Nat
  clauses : List ClauseRec
  routes : List RouteRec
  mcast : List McastRec
  folds : List FoldRec
  tables : List BetaTable
  osier : List OsierRec
  bridges : List Bridge
  anchors : List AnchorRec
  programs : List ProgRec
  memplan : List Region
  pgkeys : List PgKeyRec
  tally : Option TallyCfg
  links : Option LinksRec
  policy : Policy
  raw : List Byte
  deriving DecidableEq, Repr

/-- The weave registers and slots of 02: what is staged, what is installed, its digest (R74) and the merged state.
`merged` is set once a partial apply has changed the installed weave (R78, R80). -/
structure WeaveSt where
  requireSig : Bool
  staged : Option Weave
  installed : Option Weave
  merged : Bool
  locked : Bool
  digest : List Byte
  lastId : List Byte
  loadStatus : Nat
  applyStatus : Nat
  rbAddr : BitVec 64
  rbLen : BitVec 64
  rbBusy : Bool
  rbDone : Bool
  rbStatus : Nat
  deriving DecidableEq, Repr

/-! ## Phrases and tiles (04) -/

/-- A loop-stack entry (R132, R159). -/
structure LoopEnt where
  start : Nat
  stop : Nat
  remaining : Nat
  deriving DecidableEq, Repr

/-- A rounding context (R132, R169): the key slot (none held), lane mode, stream word, per-lane positions. -/
structure RCtx where
  slot : Option Nat
  lane : Bool
  stream : BitVec 64
  pos : List (BitVec 64)
  deriving DecidableEq, Repr

/-- A live phrase (R132): `s` 32 scalars, `v` 32 registers of 64 lanes, `p` 8 predicates; `ctr` the lane counters of its
threads (R285); `arrived` the generation last arrived at, per stop (R154). -/
structure Phrase where
  pc : Nat
  lanes : Nat
  base : Nat
  s : List (BitVec 64)
  v : List (List (BitVec 32))
  p : List (BitVec 64)
  loops : List LoopEnt
  rctx : RCtx
  ctr : List Nat
  tags : List Nat
  vflags : BitVec 5
  arrived : List (Option Nat)
  deriving DecidableEq, Repr

/-- A work-queue item (R134): a new phrase, or a saved phrase waiting for a slot (R181). -/
structure WorkItem where
  base : Nat
  lanes : Nat
  entry : Nat
  args : List (BitVec 64)
  resume : Option Phrase
  deriving DecidableEq, Repr

/-- How a transfer reaches HBM: this device's own, a device no route entry reaches, or link messages by their numbers
(R374, R378, R379). -/
inductive Via where
  | here
  | unreachable
  | sent (ids : List Nat)
  deriving DecidableEq, Repr

/-- An outstanding DMA transfer (R148): its issuer, its descriptor with `hbm` the address within the device that holds it,
the destination tiles of a multicast, the rows of a write as they stood at issue, and its place in the order of
issue (R146). -/
structure Dma where
  slot : Nat
  tag : Nat
  pc : Nat
  word : BitVec 64
  toHbm : Bool
  dests : Option (List Nat)
  rows : Nat
  addr : BitVec 64
  hbm : Nat
  sram : Nat
  rowBytes : Nat
  hbmStride : Nat
  sramStride : Nat
  src : List (List Byte)
  via : Via
  stamp : Nat
  deriving DecidableEq, Repr

/-- A fill that no DMAW on its tag has awaited, under way or completed (R146): its issuer, the stamp of its transfer, the
parts of tiles it fills (tile, offset, length), the counter its free bytes are drawn at, and the parts stored to since. -/
structure Fill where
  slot : Nat
  tag : Nat
  stamp : Nat
  parts : List (Nat × Nat × Nat)
  free : Nat
  newer : List (Nat × Nat × Nat)
  deriving DecidableEq, Repr

/-- TSQ_FAULT and TSQ_FAULT_ADDR. -/
structure FaultReg where
  valid : Bool
  cause : Nat
  phrase : Nat
  pc : Nat
  detail : BitVec 32
  addr : BitVec 64
  deriving DecidableEq, Repr

/-- One accumulator: the stack and count of R92 in the integer modes, acc and INV of R95 in the block modes. -/
structure Acc where
  stack : List Int
  count : Nat
  acc : Int
  inv : Bool
  deriving DecidableEq, Repr

/-- A held buffer: the mode it was loaded in (none: no load), its elements row by row of the reduction index, its block
exponents by n j + q (R161). -/
structure Held where
  mode : Option Nat
  data : List (List Int)
  exps : List Int
  deriving DecidableEq, Repr

/-- A stream row: its elements and its block exponents (R162). -/
structure StreamRow where
  elems : List Int
  exps : List Int
  deriving DecidableEq, Repr

/-- The array of a tile (03): TSQ_ARR_STAT's fields, Eref, 64 x 64 accumulators, the two held buffers, how many output
tiles it has opened since its clause was reset, and the gang traffic that waits here (R595): multicast opens, multicast
rows with the output row their sender named, and final sums. -/
structure ArrayU where
  isOpen : Bool
  sat : Bool
  mode : Nat
  faultCause : Nat
  owner : Nat
  eref : Int
  acc : List (List Acc)
  held0 : Held
  held1 : Held
  active : Bool
  loading : Option Held
  gen : Nat
  opens : List (Nat × Int)
  rows : List (Nat × List StreamRow)
  sums : List (List (List (Int × Bool)))
  deriving DecidableEq, Repr

/-- A coupling bank (R189): codes keyed 512 i + j, 64 block exponents, OSR_QERR of its blocks (R193). -/
structure Bank where
  codes : Mem
  scale : List Nat
  qerr : List Nat
  deriving DecidableEq, Repr

/-- A spin event on its way to one target tile: its 32 bits (R200), and the first phase of the sender that had not begun when
it was sent (R201). -/
structure SpinEv where
  word : BitVec 32
  before : BitVec 32
  target : Nat
  deriving DecidableEq, Repr

/-- A write that waits for a phase boundary (R197): OWF's fields or OBIAS's biases. -/
structure OsWrite where
  isBias : Bool
  first : Nat
  vals : List Int
  deriving DecidableEq, Repr

/-- An ORUN or OSEL in progress (R195): kind 0 lockstep, 1 loose, 2 free-run, 3 OSEL; its issuer's slot (64 once that
phrase has ended), the rounds asked for, the next strand, whether a phase is in progress, the round's β before R187, the
captured rounding context with lane 0's thread and counter (R210, R288), the latches of each unit in free-run. -/
structure OsRun where
  kind : Nat
  slot : Nat
  rounds : Nat
  stale : Nat
  stepBeta : Bool
  strand : Nat
  inPhase : Bool
  entry : BitVec 32
  ctx : RCtx
  thread : Nat
  ctr : Nat
  latched : List Nat
  pc : Nat
  word : BitVec 32
  deriving DecidableEq, Repr

/-- The osier array and anchor units of a tile (05). -/
structure Osier where
  present : Bool
  strandCount : Nat
  strands : List Nat
  betaId : Nat
  bias : List Int
  ext : List Int
  st : List Bool
  bank0 : Bank
  bank1 : Bank
  bank : Bool
  swapPending : Bool
  idleBad : Bool
  xclip : Bool
  bclip : Bool
  unbounded : Bool
  strand : Nat
  kind : Nat
  phase : BitVec 32
  rounds : BitVec 32
  beta : BitVec 32
  inEntry : BitVec 32
  index : Nat
  frflip : Nat
  bsum : List Int
  asum : List Int
  loading : Option (List Byte)
  writes : List OsWrite
  events : List SpinEv
  run : Option OsRun
  hasAnchors : Bool
  anchorCount : Nat
  anchorWidth : Nat
  anchorStrands : List Nat
  anchorBias : List Int
  anchorCoef : List Int
  anchorSt : List Bool
  deriving DecidableEq, Repr

/-- CAL_REF or CAL_NOW: Tj in 0.25 °C, VDD_C and VDD_ANA in mV. -/
structure CalVals where
  tj : Int
  vc : Nat
  va : Nat
  deriving DecidableEq, Repr

/-- The calibrator of a tile (06). `trim` none means the base table; the states copied aside in step 1
(R222, R224) are the array's own, which a calibration does not change here; `stepAt` the interval timer as the step began;
`known` whether CAL_REF holds the values of a step 1; `rail` the setpoint and deadline a cause-2 trigger waits for (R227);
`idleAt` the interval timer when the last ORUN or OSEL ended (R229). -/
structure Calib where
  cal : BitVec 2
  seq : BitVec 32
  step : Nat
  stepAt : Nat
  trigger : Nat
  failReason : Nat
  restarts : Nat
  fails : Nat
  vsrc : Bool
  spot : Bool
  dt : BitVec 8
  dv : BitVec 8
  spotPeriod : BitVec 8
  spotIdle : BitVec 8
  known : Bool
  ref : CalVals
  now : CalVals
  perr : BitVec 16
  acorr : BitVec 16
  ncorr : BitVec 16
  jerr : BitVec 16
  driftLast : BitVec 16
  driftWorst : BitVec 16
  driftCount : Nat
  ufail : BitVec 512
  trim : Option (List (BitVec 32))
  spotCmd : Bool
  lastSpot : Option Nat
  idleAt : Nat
  rail : Option (Nat × Nat)
  startCmd : Bool
  deriving DecidableEq, Repr

/-- A breakpoint, DBG_BP. -/
structure Bp where
  enable : Bool
  anyPhrase : Bool
  phrase : BitVec 6
  pc : BitVec 13
  deriving DecidableEq, Repr

/-- DBG_CTL, DBG_STAT and DBG_BP of a tile (16). `stepPending` lets the phrase stepPhrase issue one instruction. -/
structure Dbg where
  hold : Bool
  holdEn : Bool
  bpClause : Bool
  stepPhrase : BitVec 6
  held : Bool
  reason : Nat
  phrase : Nat
  bp : Nat
  stepPending : Bool
  pc : Nat
  bps : List Bp
  deriving DecidableEq, Repr

/-- FLD_TSTAT's fields. -/
structure FldTstat where
  mismatch : Bool
  satSeen : Bool
  mmSlot : Nat
  mmBase : BitVec 32
  deriving DecidableEq, Repr

/-- One tile: clause membership, SRAM, instruction memory, phrases, the flags that ended phrases left in their slots, queue, stops (participant counts, and the generation
each pending arrival belongs to, R153), transfers, array, osier array, calibrator, generator, network, debug and tally
registers. -/
structure Tile where
  clause : Option Nat
  sram : Mem
  imem : List (BitVec 64)
  entry : Nat
  slots : List (Option Phrase)
  endFlags : List (BitVec 5)
  wq : List WorkItem
  partc : List Nat
  arr : List (List Nat)
  dmas : List Dma
  fills : List Fill
  fault : FaultReg
  lastIssue : Nat
  au : ArrayU
  os : Osier
  cal : Calib
  lwrap : Bool
  pgBlocks : Nat
  winDirect : BitVec 4
  winFallback : Nat
  fld : FldTstat
  dbg : Dbg
  held : Bool
  cnt : List Nat
  pendTicks : Nat
  deriving DecidableEq, Repr

/-! ## Runs -/

/-- A gloss being formed for a run (13 R430-R434): where the record goes, the request's fields, the digests taken. -/
structure GlossRun where
  sign : Bool
  record : Nat
  entries : List (Nat × Nat)
  seeds : List (List Byte)
  digests : List (Option (List Byte))
  deriving DecidableEq, Repr

/-- A clause run: the command it belongs to, its arguments, its start on the interval timer, its gloss. -/
structure Run where
  cmd : Nat
  args : List (BitVec 64)
  tStart : Nat
  gloss : Option GlossRun
  deriving DecidableEq, Repr

/-- The state of an installed clause: stop generations (R152), the run, the fault freeze (R174), the causes of
saturation (R414) and the lowest line an uncorrected error struck (R413). -/
structure ClauseSt where
  id : Nat
  gens : List Nat
  run : Option Run
  frozen : Bool
  satMask : BitVec 3
  struck : Option Nat
  uncorr : Bool
  deriving DecidableEq, Repr

/-! ## Host interface (12) -/

/-- What a finished command reports (R407, R413). -/
structure Completion where
  status : Nat
  detail0 : BitVec 64
  detail1 : BitVec 64
  detail2 : BitVec 64
  deriving DecidableEq, Repr

/-- A host queue: PCI_QCFG, PCI_QSQ, PCI_QCQ, PCI_QHEAD, the doorbell values and the phase. -/
structure Queue where
  enable : Bool
  sqLog2 : Nat
  cqLog2 : Nat
  err : Bool
  sq : BitVec 64
  cq : BitVec 64
  sqHead : Nat
  sqTail : Nat
  cqTail : Nat
  cqDoor : Nat
  phase : Bool
  hostReads : Nat
  held : Option (List Byte × Option Completion)
  deriving DecidableEq, Repr

/-- A started command: its descriptor's bytes; for an ENTROPY_READ, its count among its queue's reads of the session, the
session open when it started, and the units it has gathered, once it has begun (R271, R469); its completion once
finished. -/
structure Started where
  id : Nat
  queue : Nat
  cid : Nat
  opcode : Nat
  desc : List Byte
  readNo : Nat
  session : Option (BitVec 32)
  units : Option (List (List Byte))
  fin : Option Completion
  deriving DecidableEq, Repr

/-- What Jaset sends out, in order: a host-memory write, an MSI-X message, a PMBus command to a regulator (rail, mV; 0
for off), a frame group on a link, or a wake pattern: a period of it, a µs of mark (true) or space each. -/
inductive Output where
  | hostWrite (addr : Nat) (data : List Byte)
  | msix (vector : Nat)
  | pmbus (rail : Nat) (mv : Nat)
  | linkFrame (n : Nat) (f : Frame)
  | linkTag (n : Nat) (tag : List Byte)
  | linkHello (n : Nat) (h : Hello)
  | linkKey (n : Nat) (m : KeyMsg)
  | wakePattern (n : Nat) (period : List Bool)
  | flashWrite (addr : Nat) (data : List Byte)
  | fwAnswer (n : Nat) (status : Nat)
  | unsupportedRequest
  | boundary (cells : List Bool)
  deriving DecidableEq, Repr

/-- DEV_IRQ_*, PCI_LINK, PCI_BAR2_BASE, NOC_SEAM, FLD_ASTAT and DEV_STAT.ready; `bar2Log2` is the size of BAR2 as a power
of two (R398), `unsupp` the Unsupported Request Error of AER's status (R397, R401; log entry 39, PRESUMED), `qTurn` the queue
whose turn to be fetched from comes next (R406). -/
structure Dev where
  ready : Bool
  recovery : Bool
  irqStat : BitVec 7
  irqMask : BitVec 7
  pciGen : Nat
  pciWidth : Nat
  pciFlit : Bool
  bar2Base : BitVec 10
  bar2Log2 : Nat
  unsupp : Bool
  qTurn : Nat
  eastAwake : Bool
  closing : Bool
  asleep : Nat
  aGuard : Bool
  aUncorr : Bool
  aGuardRegion : Nat
  aCount : Nat
  deriving DecidableEq, Repr

/-- HBM_STAT, HBM_ERR and HBM_UADDR of a stack. -/
structure Stack where
  up : Bool
  selfRefresh : Bool
  offline : Bool
  temp : Nat
  rate : Nat
  uncorr : Nat
  parity : Nat
  corr : Nat
  uaValid : Bool
  uaAddr : Nat
  deriving DecidableEq, Repr

/-- The exact value of an atomic cell, kept where it differs from its stored bytes (R588): address, width in bytes. -/
structure ExactCell where
  addr : Nat
  width : Nat
  val : Int
  deriving DecidableEq, Repr

/-- What the last HBM access returned (R590). -/
structure HbmResp where
  status : Nat
  data : List Byte
  deriving DecidableEq, Repr

/-- An atomic on its way to its controller (R343): who issued it (clause, tile, slot, pc, word) or a fold (R335), the
address its instruction gave, the address within the device that holds it, and its place in the order of issue (R146). -/
structure AtomReq where
  clause : Nat
  tile : Nat
  slot : Nat
  pc : Nat
  word : BitVec 64
  isFold : Bool
  via : Via
  addr : BitVec 64
  hbm : Nat
  code : BitVec 3
  operand : Int
  stamp : Nat
  deriving DecidableEq, Repr

/-! ## Folds (10) -/

/-- A group within a fold: who contributed to it last (R335): tile, slot, pc, the high half of its FSEND, and when. -/
structure FGroup where
  g : Group
  tile : Nat
  slot : Nat
  pc : Nat
  hi : BitVec 32
  stamp : Nat
  deriving DecidableEq, Repr

/-- A node of a fold tree: its own contributions for pass 1, those held for pass 2 (R341, fp32 patterns), those ready for
the summing pass, and what it has sent up in each pass. -/
structure FoldNode where
  own1 : List FGroup
  held : List FGroup
  own2 : List FGroup
  up1 : List FGroup
  up2 : List FGroup
  deriving DecidableEq, Repr

/-- A fold slot at work: per-node queues in the order of its node list, the exponents the root has for broadcast, those
broadcast and not yet summed, the results at a root tile. -/
structure FoldSt where
  slot : Nat
  nodes : List FoldNode
  exps : List Group
  sent : List Group
  results : List Group
  mismatch : Bool
  deriving DecidableEq, Repr

/-! ## Hopper (08) and token sampler (09) -/

/-- Where a noise cell stands (R258-R266, R277). -/
inductive CellSt where
  | startup | healthy | isolated | retest | locked | capture
  deriving DecidableEq, Repr

/-- The continuous tests at a bit: the last bit with the length of its run (RCT); the first bit of the window, how often
its value has occurred in it, and the bits the window has had (APT) (R258). -/
structure HealthAt where
  last : Option Bool
  run : Nat
  first : Bool
  seen : Nat
  pos : Nat
  deriving DecidableEq, Repr

/-- A noise cell: its state, the conditioned output that waits for the next block (R262), the times of its isolations
within the last 1,000 ms (R266), its continuous tests, the APT and RCT cutoffs that it uses (R559). -/
structure NoiseCell where
  st : CellSt
  pend : Option (List Byte)
  isolations : List Nat
  health : HealthAt
  apt : Nat
  rct : Nat
  deriving DecidableEq, Repr

/-- The hopper of a half. -/
structure Hopper where
  ready : Bool
  entFail : Bool
  failSeen : Bool
  alarmed : Bool
  units : List (List Byte)
  cells : List NoiseCell
  rct : Nat
  apt : Nat
  startupErr : Nat
  lockouts : Nat
  persist : BitVec 16
  reserve : BitVec 12
  aptCutoff : Nat
  rctCutoff : Nat
  deliv : BitVec 64
  capCell : BitVec 4
  capAddr : BitVec 34
  capturing : Option (Nat × Nat)
  deriving DecidableEq, Repr

/-- An internal request for conditioned entropy (R271): of a SESSION_OPEN with its input, of SEC_DBG_CTL.challenge, of a link's
set-up for its own first message or for its answer to the peer's. -/
inductive DrawReq where
  | session (id : Nat) (input : List Byte)
  | challenge
  | linkStart (n : Nat)
  | linkAnswer (n : Nat) (cert ca report nonce ek : List Byte)
  deriving DecidableEq, Repr

/-- The token sampler of a half: its registers, and what an enable latched (R297). -/
structure Tks where
  enable : Bool
  clause : BitVec 6
  sizeLog2 : BitVec 4
  ring : BitVec 64
  tail : BitVec 64
  head : BitVec 32
  busy : Bool
  overrun : Bool
  cfgErr : Bool
  lastStatus : Nat
  lClause : Nat
  lSize : Nat
  lRing : Nat
  lTail : Nat
  tailCount : BitVec 32
  deriving DecidableEq, Repr

/-! ## Links (11) -/

/-- GLK_STAT.state. -/
inductive LinkState where
  | off | training | opened | keyed | holding | failed | refused
  deriving DecidableEq, Repr

/-- Progress of a key set-up (R359, R360): own nonce and seeds, none while the first message waits for the hopper; the
peer's first message, the secrets. -/
structure KeySetup where
  nonce : List Byte
  dkSeed : List Byte
  sentStep1 : List Byte
  peerStep1 : Option (List Byte)
  peerKey : List Byte
  peerId : List Byte
  ourSecret : List Byte
  ourStep2 : List Byte
  deriving DecidableEq, Repr

/-- One Gelhoez link. `trained` and `met`: since it last went down, its lanes have trained and the hellos have crossed;
`stopping`: it waits to switch off (R371); `rxq`: the requests that
wait for their controller; `waiting`: the messages that a REPLAY keeps at the link (R448); `parts`: of each channel, the bytes of a message
that has not ended (R354); `sendNak`: the number that a NAK owed names (R363); `keys`: those of
the current epoch, lower to higher and higher to lower, `prevKeys` those of the epoch before, which a direction uses until its
switch (R362). -/
structure Link where
  hold : BitVec 16
  debugPeer : Bool
  protect : Bool
  protectNow : Bool
  peerId : BitVec 16
  peerRole : Nat
  state : LinkState
  laneBad : BitVec 8
  refuse : Nat
  orphan : Bool
  epoch : BitVec 31
  txEpoch : Nat
  rxEpoch : Nat
  uncorr : Nat
  tagFail : Nat
  retries : Nat
  retrains : Nat
  peerKeyId : List Byte
  txSeq : BitVec 64
  rxSeq : BitVec 64
  keys : Option (List Byte × List Byte)
  prevKeys : Option (List Byte × List Byte)
  lower : Bool
  txGroup : Nat
  rxGroup : Nat
  group : List Frame
  nextFsn : BitVec 16
  rxFsn : BitVec 16
  replayBuf : List Frame
  resend : List Frame
  nakFsn : Option (BitVec 16)
  nakCount : Nat
  sendNak : Option (BitVec 16)
  txq : List Msg
  transit : List Msg
  rxq : List Msg
  waiting : List Msg
  parts : List (List Byte)
  credits : List Nat
  owed : List Nat
  rr : Nat
  wake : Bool
  setup : Option KeySetup
  stopping : Bool
  trained : Bool
  met : Bool
  deriving DecidableEq, Repr

/-- GLK_WAKE, in the VSTBY domain. -/
structure GlkWake where
  device : BitVec 16
  hitLink : Nat
  hit : Bool
  mode : Bool
  enable : BitVec 32
  deriving DecidableEq, Repr

/-! ## Power (15) -/

/-- Where the core stands: its rails off (vigil, or before a start), held in reset by RESET_N, or running. -/
inductive CorePhase where
  | off | resetHeld | running
  deriving DecidableEq, Repr

/-- PWR_RAIL of a half; `lastOk` is the interval timer at the last successful read. -/
structure Rail where
  vout : Nat
  vcmd : Nat
  lastOk : Nat
  uvSeen : Bool
  noresp : Bool
  deriving DecidableEq, Repr

/-- The power block, pins and straps. -/
structure Pwr where
  core : CorePhase
  vigil : Bool
  retained : Bool
  stbyReset : Bool
  stbyLost : Bool
  coreEn : Bool
  hbmEn : Bool
  thermtrip : Bool
  bootPulse : Bool
  vsetW : BitVec 16
  vsetE : BitVec 16
  tOn : BitVec 8
  tOff : BitVec 8
  step : BitVec 8
  period : BitVec 8
  retain : Bool
  wakePlait : Bool
  vigilPeriod : BitVec 10
  railW : Rail
  railE : Rail
  vana : Nat
  cause : Nat
  wakeSrc : Nat
  pendingWake : Nat
  tripped : Bool
  tripPending : Bool
  recoveryN : Bool
  bootMode : BitVec 2
  plAddr : BitVec 3
  bootCount : BitVec 32
  deriving DecidableEq, Repr

/-! ## Security and alarm (14), gloss and transcripts (13) -/

/-- A key-store entry: its bytes, the digest reported for it (R454), and whether a retention fault has struck it, so that its
tag no longer holds (R456). -/
structure KeyEntry where
  k : Nat
  key : List Byte
  digest : List Byte
  torn : Bool
  deriving DecidableEq, Repr

/-- SEC registers and the key store; `upset` holds the checks whose two paths disagree when they are next made (R484). -/
structure Sec where
  store : List KeyEntry
  session : Bool
  sessionId : BitVec 32
  ownerId : List Byte
  idErased : Bool
  ksBad : Nat
  upset : List Check
  debug : Nat
  nonceValid : Bool
  nonce : List Byte
  token : Mem
  lastResult : Nat
  dbgFails : Nat
  debugOpens : BitVec 32
  sanitizeCount : BitVec 32
  lastSanitize : List Byte
  deriving DecidableEq, Repr

/-- ALM registers; `authRun` and `dbgRun` are the counts of sources 3 and 4, `hot` the sensors whose last reading was out of
range (R476). -/
structure Alm where
  policy : BitVec 12
  tLow : BitVec 8
  tHigh : BitVec 8
  authLimit : BitVec 8
  dbgLimit : BitVec 8
  latched : BitVec 6
  present : BitVec 6
  worst : Nat
  counts : List Nat
  authRun : Nat
  dbgRun : Nat
  hot : List Sensor
  pendingReset : Bool
  deriving DecidableEq, Repr

/-- SEC_GLOSS_REQ and SEC_GLOSS_STAT of each clause, and the kept digests of read-only regions (R433). -/
structure Gloss where
  req : List (BitVec 64)
  status : List Nat
  offset : List Nat
  count : List Nat
  cache : List (Nat × List Byte)
  deriving DecidableEq, Repr

/-- The transcript recorder (13): the ring's header lies in HBM; these are the engine's own counts. `merge` holds the BAR2
writes that may still merge into one entry (R441). -/
structure Transcript where
  recording : Bool
  outbound : Bool
  hostSeq : Nat
  written : Nat
  dropped : Nat
  gapOwed : Nat
  gapSeen : Bool
  merge : Option (Nat × List Byte)
  deriving DecidableEq, Repr

/-- A REPLAY at work (R445-R447): its command and clause, the transcript and how far it has been applied, the host
entries applied, the causes of saturation of its runs, the messages the clause has sent with their links, the requests
whose answers the transcript holds (number, device, node). -/
structure Replay where
  cmd : Nat
  clause : Nat
  addr : Nat
  len : Nat
  pos : Nat
  applied : Nat
  sat : BitVec 3
  satSeen : Bool
  sent : List (Nat × List Byte)
  asked : List (Nat × Nat × Nat)
  deriving DecidableEq, Repr

/-! ## Management (16) and firmware (17) -/

/-- A steward's mailbox and its DBG_SW_CTL; `holds` are the tiles that the request in progress holds (R523), `internal` is the steward's own state (log entry 19, DESIGN CHOICE). -/
structure Mbox where
  busy : Bool
  done : Bool
  status : Nat
  req : List Byte
  window : Mem
  hold : Bool
  held : Bool
  viaTap : Bool
  holds : List Nat
  internal : BitVec 64
  deriving DecidableEq, Repr

/-- What stands on the two rails of the plait bus (R514): a data bit, a mark, or the spacer between symbols. -/
inductive PlSymbol where
  | bit (b : Bool)
  | mark
  | spacer
  deriving DecidableEq, Repr

/-- The plait bus (R513-R520): the levels of PL_D0, PL_D1 and this device's PL_ACK; whether the acknowledge of the address
byte's bit [0] is withheld; whether a transaction is being received, its data bits so far, and whether its closing mark has
come; the symbols of a response that Jaset has still to send, the first of them the one in progress. -/
structure Plait where
  d0 : Bool
  d1 : Bool
  ack : Bool
  owed : Bool
  inTxn : Bool
  bits : List Bool
  closed : Bool
  response : List PlSymbol
  deriving DecidableEq, Repr

/-- The TAP (R525, R526): the instruction register, the update stage of the boundary-scan register, the bits that the last
data scan shifted out on TDO, and DBG_ACCESS's result: status, offset, read data. -/
structure Tap where
  ir : BitVec 8
  boundary : List Bool
  tdo : List Bool
  status : BitVec 8
  offset : BitVec 32
  data : BitVec 64
  deriving DecidableEq, Repr

/-- The tally block (16): installed settings, dump ring, rim counters; `taken` is how many multiples of dump_period have had
their snapshot (R545). -/
structure Tly where
  cfg : TallyCfg
  dumping : Bool
  taken : Nat
  dumps : Nat
  dropped : Nat
  ringWrite : Nat
  ringDropped : Nat
  seq : Nat
  since : Nat
  rim : List (Nat × Nat)
  deriving DecidableEq, Repr

/-- A flash slot: FW_SLOT's fields and its bytes; none of what the part was shipped with (log entry 9, DESIGN CHOICE). -/
structure FwSlot where
  rollback : BitVec 32
  state : Nat
  format : Nat
  image : List Byte
  deriving DecidableEq, Repr

/-- A settings copy in flash (R547): the format and the settings. -/
structure Settings where
  format : Nat
  policy : BitVec 12
  tLow : BitVec 8
  tHigh : BitVec 8
  authLimit : BitVec 8
  dbgLimit : BitVec 8
  acceptChain : Bool
  defaulted : Bool
  deriving DecidableEq, Repr

/-- A stage in progress (R551, R555): of a host command, or of an image forwarded to this device. -/
structure FwJob where
  cmd : Option Nat
  deriving DecidableEq, Repr

/-- FW_SLOT's fields as the slot records hold them (R547, R568). -/
structure SlotMeta where
  rollback : BitVec 32
  state : Nat
  format : Nat
  deriving DecidableEq, Repr

/-- One copy of the slot records in flash, with its sequence number (R547, R548). -/
structure FwRecord where
  seq : Nat
  state : Nat
  pend : Bool
  activeSlot : Bool
  attempts : Nat
  meta0 : SlotMeta
  meta1 : SlotMeta
  deriving DecidableEq, Repr

/-- The parts of an image that have been loaded (R557, R559): the stewards' instruction memories, the microcode of each half's
tile shells, the PHY firmware. -/
structure FwParts where
  steward : List Byte
  microW : List Byte
  microE : List Byte
  hbmPhy : List Byte
  pciePhy : List Byte
  linkPhy : List Byte
  deriving DecidableEq, Repr

/-- The firmware block: FW_STAT, the slots, FW_CFG, recovery; the stage that runs, the streams it forwards whose answer has not
come, and the next devices that accepted and refused one, by fw_next index (R553, R554); the image held in the reserved top
1 GiB of HBM (R552, R557); the two copies of the slot records (R548); the slot that recovery writes (R567); the parts loaded
and the base calibration tables that serve each half (R234, R559); whether each slot read back from the flash as it was
written at the last power-up (R563). -/
structure Fw where
  state : Nat
  pend : Bool
  stage : Option FwJob
  activeSlot : Bool
  attempts : Nat
  lastStatus : Nat
  defaulted : BitVec 3
  slot0 : FwSlot
  slot1 : FwSlot
  floor : BitVec 32
  acceptChain : Bool
  recBusy : Bool
  recDone : Bool
  recStatus : Nat
  recOff : BitVec 32
  recCount : BitVec 12
  recBuf : Mem
  recNext : Nat
  recImage : List Byte
  settings : List Settings
  streams : List Nat
  accepted : BitVec 4
  refused : BitVec 4
  hbmCopy : List Byte
  copy0 : Option FwRecord
  copy1 : Option FwRecord
  recTarget : Option Bool
  parts : FwParts
  tableW : List Byte
  tableE : List Byte
  slotOk : Bool × Bool
  deriving DecidableEq, Repr

end Sys2Proof.Machine
end

