-- ==== Sys2Proof/Machine/State.lean ====
section
/-! DEFINITION. The state of the block, the reasons a step can stop, and the state right after reset: every field at the
value of the manual's Reset column, at the moment RESET_N rises after a first power-up (log entries 7, 8 and 9 name the
values the manual does not give). -/
namespace Sys2Proof.Machine

/-- Why the block stops with a fault: it never does. Every fault of the manual is a record in State (TSQ_FAULT, a completion
status, an alarm source), after which the block goes on, so the type has no constructor. -/
inductive Fault where
  deriving DecidableEq, Repr

/-- Why the block refuses a command. -/
inductive Refusal where
  /-- Raised by an arm of exec whose command has no meaning yet. Safe: the model stops. -/
  | notModelled (mnemonic : String)
  deriving DecidableEq, Repr

/-- The fuses: DEV_GRADE.grade and the physical IDs of the enabled tiles in ascending order (R19-R21). -/
structure Fuse where
  grade : Nat
  tileMap : List Nat
  deriving DecidableEq, Repr

/-- The whole state of the block. -/
structure State where
  fuse : Fuse
  pwr : Pwr
  dev : Dev
  queues : List Queue
  started : List Started
  nextId : Nat
  out : List Output
  hbm : Mem
  bad : List Nat
  exact : List ExactCell
  hbmStacks : List Stack
  hbmResp : HbmResp
  atoms : List AtomReq
  resps : List Msg
  nextReq : Nat
  spins : List SpinEv
  weave : WeaveSt
  clauses : List ClauseSt
  tiles : List Tile
  folds : List FoldSt
  hopW : Hopper
  hopE : Hopper
  draws : List DrawReq
  tksW : Tks
  tksE : Tks
  links : List Link
  glkWake : GlkWake
  sec : Sec
  alm : Alm
  gloss : Gloss
  trans : Transcript
  replay : Option Replay
  mboxW : Mbox
  mboxE : Mbox
  plait : Plait
  tap : Tap
  tly : Tly
  fw : Fw
  timer : Nat
  free : Nat
  pending : List Instr
  deriving DecidableEq, Repr

/-! ## Reset values -/

/-- A fault register with nothing recorded (R177). -/
def FaultReg.reset : FaultReg := { valid := false, cause := 0, phrase := 0, pc := 0, detail := 0, addr := 0 }

/-- An accumulator that holds 0. -/
def Acc.zero : Acc := { stack := [], count := 0, acc := 0, inv := false }

/-- A held buffer that holds no load. -/
def Held.empty : Held := { mode := none, data := [], exps := [] }

/-- The array after reset (R107). -/
def ArrayU.reset : ArrayU :=
  { isOpen := false, sat := false, mode := 0, faultCause := 0, owner := 0, eref := 0,
    acc := List.replicate 64 (List.replicate 64 Acc.zero), held0 := Held.empty, held1 := Held.empty, active := false,
    loading := none, gen := 0, opens := [], rows := [], sums := [] }

/-- A coupling bank with every coupling 0. -/
def Bank.empty : Bank := { codes := [], scale := List.replicate 64 0, qerr := List.replicate 64 0 }

/-- The osier array after reset: no record (R217). -/
def Osier.reset : Osier :=
  { present := false, strandCount := 0, strands := [], betaId := 0xFFFF, bias := List.replicate 512 0,
    ext := List.replicate 512 0, st := List.replicate 512 false, bank0 := Bank.empty, bank1 := Bank.empty,
    bank := false, swapPending := false, idleBad := false, xclip := false, bclip := false, unbounded := false,
    strand := 0, kind := 0, phase := 0, rounds := 0, beta := 0x3F800000, inEntry := 0, index := 0, frflip := 0,
    bsum := List.replicate 512 0, asum := List.replicate 512 0, loading := none, writes := [], events := [], run := none,
    hasAnchors := false, anchorCount := 0, anchorWidth := 0, anchorStrands := [], anchorBias := [], anchorCoef := [],
    anchorSt := [] }

/-- CAL_REF and CAL_NOW after reset. -/
def CalVals.reset : CalVals := { tj := 0, vc := 0, va := 0 }

/-- The calibrator after reset (R231, R235): state 0b01, base trims. -/
def Calib.reset : Calib :=
  { cal := 1, seq := 0, step := 0, stepAt := 0, trigger := 0, failReason := 0, restarts := 0, fails := 0, vsrc := false,
    spot := false, dt := 20, dv := 20, spotPeriod := 100, spotIdle := 50, known := false, ref := CalVals.reset,
    now := CalVals.reset,    perr := 0, acorr := 0, ncorr := 0, jerr := 0, driftLast := 0, driftWorst := 0, driftCount := 0, ufail := 0,
    trim := none, spotCmd := false, lastSpot := none, idleAt := 0, rail := none, startCmd := false }

/-- A breakpoint after reset. -/
def Bp.reset : Bp := { enable := false, anyPhrase := false, phrase := 0, pc := 0 }

/-- The tile shell's debug registers after reset. -/
def Dbg.reset : Dbg :=
  { hold := false, holdEn := false, bpClause := false, stepPhrase := 0, held := false, reason := 0, phrase := 0, bp := 0,
    stepPending := false, pc := 0, bps := List.replicate 4 Bp.reset }

/-- A tile after reset: it belongs to no clause, every slot is free. -/
def Tile.reset : Tile :=
  { clause := none, sram := [], imem := [], entry := 0, slots := List.replicate 64 none,
    endFlags := List.replicate 64 0, wq := [], partc := List.replicate 16 1, arr := List.replicate 16 [], dmas := [], fills := [], fault := FaultReg.reset, lastIssue := 63,
    au := ArrayU.reset, os := Osier.reset, cal := Calib.reset, lwrap := false, pgBlocks := 0, winDirect := 0,
    winFallback := 0, fld := { mismatch := false, satSeen := false, mmSlot := 0, mmBase := 0 }, dbg := Dbg.reset,
    held := false, cnt := List.replicate 96 0, pendTicks := 0 }

/-- The settings that 17 gives a part whose record verifies in neither copy (R548). -/
def Settings.default : Settings :=
  { format := 1, policy := 0x666, tLow := 0xE7, tHigh := 110, authLimit := 16, dbgLimit := 4, acceptChain := false,
    defaulted := false }

/-- A power block as RESET_N rises (R512; log entries 7, 8): COLD_RESET is the rise. -/
def Pwr.reset : Pwr :=
  { core := .resetHeld, vigil := false, retained := false, stbyReset := false, stbyLost := true,
    coreEn := true, hbmEn := true, thermtrip := false, bootPulse := false, vsetW := 750,
    vsetE := 750, tOn := 95, tOff := 90, step := 10, period := 1, retain := false, wakePlait := true, vigilPeriod := 50,
    railW := { vout := 0, vcmd := 750, lastOk := 0, uvSeen := false, noresp := false },
    railE := { vout := 0, vcmd := 750, lastOk := 0, uvSeen := false, noresp := false },
    vana := 0, cause := 1, wakeSrc := 0, pendingWake := 0, tripped := false, tripPending := false, recoveryN := true,
    bootMode := 0, plAddr := 0, bootCount := 1 }

/-- The device-control registers after reset. -/
def Dev.reset : Dev :=
  { ready := false, recovery := false, irqStat := 0, irqMask := 0, pciGen := 0, pciWidth := 0, pciFlit := false,
    bar2Base := 0, bar2Log2 := 36, unsupp := false, qTurn := 0, eastAwake := true, closing := false, asleep := 0, aGuard := false, aUncorr := false,
    aGuardRegion := 0, aCount := 0 }

/-- A host queue after reset. -/
def Queue.reset : Queue :=
  { enable := false, sqLog2 := 0, cqLog2 := 0, err := false, sq := 0, cq := 0, sqHead := 0, sqTail := 0, cqTail := 0,
    cqDoor := 0, phase := false, hostReads := 0, held := none }

/-- An HBM stack's registers after reset. -/
def Stack.reset : Stack :=
  { up := false, selfRefresh := false, offline := false, temp := 0, rate := 0, uncorr := 0, parity := 0, corr := 0,
    uaValid := false, uaAddr := 0 }

/-- The tally settings with no TALLY section installed (R537). -/
def TallyCfg.reset : TallyCfg :=
  { dedicated := false, region := 0xFFFF, period := 0, events := [0, 1, 2, 3, 4, 0x10, 0x18, 0x2A] }

/-- The weave slots after reset: nothing staged, nothing installed. -/
def WeaveSt.reset : WeaveSt :=
  { requireSig := false, staged := none, installed := none, merged := false, locked := false,
    digest := List.replicate 64 0, lastId := List.replicate 16 0, loadStatus := 0, applyStatus := 0, rbAddr := 0, rbLen := 0,
    rbBusy := false, rbDone := false, rbStatus := 0 }

/-- The continuous tests before a first bit. -/
def HealthAt.start : HealthAt := { last := none, run := 0, first := false, seen := 0, pos := 0 }

/-- A noise cell that is in its start-up test. -/
def NoiseCell.reset : NoiseCell :=
  { st := .startup, pend := none, isolations := [], health := HealthAt.start, apt := 824, rct := 81 }

/-- A hopper after reset (R278). -/
def Hopper.reset : Hopper :=
  { ready := false, entFail := false, failSeen := false, alarmed := false, units := [],
    cells := List.replicate 16 NoiseCell.reset, rct := 0, apt := 0, startupErr := 0, lockouts := 0, persist := 100,
    reserve := 32, aptCutoff := 824, rctCutoff := 81, deliv := 0, capCell := 0, capAddr := 0, capturing := none }

/-- A token sampler after reset (R309). -/
def Tks.reset : Tks :=
  { enable := false, clause := 0, sizeLog2 := 0, ring := 0, tail := 0, head := 0, busy := false, overrun := false,
    cfgErr := false, lastStatus := 0, lClause := 0, lSize := 0, lRing := 0, lTail := 0, tailCount := 0 }

/-- A link after reset (R387). -/
def Link.reset : Link :=
  { hold := 1000, debugPeer := false, protect := false, protectNow := false, peerId := 0xFFFF, peerRole := 0, state := .off,
    laneBad := 0, refuse := 0, orphan := false, epoch := 0, txEpoch := 0, rxEpoch := 0, uncorr := 0, tagFail := 0,
    retries := 0, retrains := 0, peerKeyId := List.replicate 32 0, txSeq := 0, rxSeq := 0, keys := none, prevKeys := none, lower := false,
    txGroup := 0, rxGroup := 0, group := [], nextFsn := 0, rxFsn := 0, replayBuf := [], resend := [], nakFsn := none,
    nakCount := 0, sendNak := none, txq := [], transit := [], rxq := [], waiting := [], parts := List.replicate 9 [], credits := [], owed := [], rr := 0,
    wake := false, setup := none, stopping := false, trained := false, met := false }

/-- The plait bus with every wire released, idle (R510, R513). -/
def Plait.reset : Plait :=
  { d0 := false, d1 := false, ack := false, owed := false, inTxn := false, bits := [], closed := false, response := [] }

/-- The TAP after TRST_N: IDCODE is selected (log entry 106, PRESUMED). -/
def Tap.reset : Tap := { ir := 2, boundary := [], tdo := [], status := 0, offset := 0, data := 0 }

/-- GLK_WAKE after a VSTBY power-up. -/
def GlkWake.reset : GlkWake := { device := 0xFFFF, hitLink := 0, hit := false, mode := false, enable := 0 }

/-- The security block after reset: no key, debug level 0. -/
def Sec.reset : Sec :=
  { store := [], session := false, sessionId := 0, ownerId := [], idErased := false, ksBad := 0, upset := [],
    debug := 0, nonceValid := false, nonce := List.replicate 32 0, token := [], lastResult := 0, dbgFails := 0,
    debugOpens := 0, sanitizeCount := 0, lastSanitize := List.replicate 32 0 }

/-- The alarm block after a VSTBY power-up, with the default settings (R480). -/
def Alm.reset : Alm :=
  { policy := 0x666, tLow := 0xE7, tHigh := 110, authLimit := 16, dbgLimit := 4, latched := 0, present := 0, worst := 0,
    counts := List.replicate 6 0, authRun := 0, dbgRun := 0, hot := [], pendingReset := false }

/-- The gloss requests after reset. -/
def Gloss.reset : Gloss :=
  { req := List.replicate 64 0, status := List.replicate 64 0, offset := List.replicate 64 0,
    count := List.replicate 64 0, cache := [] }

/-- The transcript recorder after reset: not recording. -/
def Transcript.reset : Transcript :=
  { recording := false, outbound := false, hostSeq := 0, written := 0, dropped := 0, gapOwed := 0, gapSeen := false,
    merge := none }

/-- A mailbox after reset. -/
def Mbox.reset : Mbox :=
  { busy := false, done := false, status := 0, req := List.replicate 64 0, window := [], hold := false, held := false,
    viaTap := false, holds := [], internal := 0 }

/-- The tally block after reset. -/
def Tly.reset : Tly :=
  { cfg := TallyCfg.reset, dumping := false, taken := 0, dumps := 0, dropped := 0, ringWrite := 0, ringDropped := 0, seq := 0,
    since := 0, rim := List.replicate 100 (0, 0) }

/-- An empty flash slot. -/
def FwSlot.empty : FwSlot := { rollback := 0, state := 0, format := 0, image := [] }

/-- The firmware block after a first power-up: slot 0 holds what the part was shipped with (log entry 9, DESIGN CHOICE). -/
def Fw.reset : Fw :=
  { state := 0, pend := false, stage := none, activeSlot := false, attempts := 0, lastStatus := 0, defaulted := 0,
    slot0 := { rollback := 0, state := 3, format := 1, image := [] }, slot1 := FwSlot.empty, floor := 0,
    acceptChain := false, recBusy := false, recDone := false, recStatus := 0, recOff := 0, recCount := 0, recBuf := [],
    recNext := 0, recImage := [], settings := [Settings.default], streams := [], accepted := 0, refused := 0,
    hbmCopy := [],
    copy0 := some { seq := 1, state := 0, pend := false, activeSlot := false, attempts := 0,
                    meta0 := { rollback := 0, state := 3, format := 1 }, meta1 := { rollback := 0, state := 0, format := 0 } },
    copy1 := none, recTarget := none,
    parts := { steward := [], microW := [], microE := [], hbmPhy := [], pciePhy := [], linkPhy := [] },
    tableW := [], tableE := [], slotOk := (true, false) }

/-- The physical IDs of an NJA-384 whose fused-off tiles are the eight last of each half (log entry 6, DESIGN CHOICE). -/
def Fuse.reset : Fuse :=
  { grade := 0,
    tileMap := (List.range 2).flatMap fun h => ((List.range 200).take 192).map fun i => 512 * h + 16 * (i / 10) + i % 10 }

/-- The block right after reset. -/
def State.reset : State :=
  { fuse := Fuse.reset, pwr := Pwr.reset, dev := Dev.reset, queues := List.replicate 16 Queue.reset, started := [],
    nextId := 0, out := [], hbm := [], bad := [], exact := [], hbmStacks := List.replicate 12 Stack.reset,
    hbmResp := { status := 0, data := [] }, atoms := [], resps := [], nextReq := 0, spins := [], weave := WeaveSt.reset, clauses := [],
    tiles := List.replicate 384 Tile.reset, folds := [], hopW := Hopper.reset, hopE := Hopper.reset, draws := [], tksW := Tks.reset,
    tksE := Tks.reset, links := List.replicate 32 Link.reset, glkWake := GlkWake.reset, sec := Sec.reset,
    alm := Alm.reset, gloss := Gloss.reset, trans := Transcript.reset, replay := none, mboxW := Mbox.reset,
    mboxE := Mbox.reset, plait := Plait.reset, tap := Tap.reset, tly := Tly.reset,
    fw := Fw.reset, timer := 0, free := 0, pending := [] }

end Sys2Proof.Machine
end

