-- ==== Sys2Proof/Machine/Bits.lean ====
section
/-! DEFINITION. Bit fields, byte order, signed and saturating arithmetic, and lists of a fixed length. -/
namespace Sys2Proof.Machine

/-- Bits [hi:lo] of a number. -/
def bitsAt (v hi lo : Nat) : Nat := v / 2 ^ lo % 2 ^ (hi + 1 - lo)

/-- Bit i of a number. -/
def bitAt (v i : Nat) : Bool := v / 2 ^ i % 2 = 1

/-- 1 for true, 0 for false. -/
def b2n (b : Bool) : Nat := if b then 1 else 0

/-- A little-endian number (R9). -/
def leNat : List Byte → Nat
  | [] => 0
  | b :: r => b.toNat + 256 * leNat r

/-- The n little-endian bytes of a number (R9). -/
def leBytes : Nat → Nat → List Byte
  | 0, _ => []
  | n + 1, v => BitVec.ofNat 8 v :: leBytes n (v / 256)

/-- A big-endian number. -/
def beNat (l : List Byte) : Nat := leNat l.reverse

/-- The n big-endian bytes of a number. -/
def beBytes (n v : Nat) : List Byte := (leBytes n v).reverse

/-- The bytes of l from offset o, n of them (fewer at the end of l). -/
def slice (l : List Byte) (o n : Nat) : List Byte := (l.drop o).take n

/-- The little-endian number of n bytes at offset o. -/
def leAt (l : List Byte) (o n : Nat) : Nat := leNat (slice l o n)

/-- The byte at offset o, 0 past the end. -/
def byteAt (l : List Byte) (o : Nat) : Nat := (l.getD o 0).toNat

/-- n bytes 0. -/
def zeros (n : Nat) : List Byte := List.replicate n 0

/-- Whether every byte is 0. -/
def allZero (l : List Byte) : Bool := l.all (· == 0)

/-- l cut or filled with zero bytes to n bytes. -/
def fitTo (n : Nat) (l : List Byte) : List Byte := l.take n ++ zeros (n - l.length)

/-- The signed value of an n-bit number. -/
def signed (n v : Nat) : Int := if v % 2 ^ n < 2 ^ (n - 1) then (v % 2 ^ n : Nat) else (v % 2 ^ n : Nat) - (2 ^ n : Nat)

/-- The n-bit two's complement code of an integer. -/
def unsigned (n : Nat) (x : Int) : Nat := (x % (2 ^ n : Nat)).toNat

/-- An integer clamped to an n-bit signed range. -/
def clampS (n : Nat) (x : Int) : Int := max (-(2 ^ (n - 1) : Nat)) (min x ((2 ^ (n - 1) : Nat) - 1))

/-- A count that stops at its largest n-bit value. -/
def satAdd (n a b : Nat) : Nat := min (a + b) (2 ^ n - 1)

/-- n rounded up to a multiple of m. -/
def roundUp (n m : Nat) : Nat := (n + m - 1) / m * m

/-- Bytes as the words of n bytes each. -/
def chunks (n : Nat) (l : List Byte) : List (List Byte) :=
  (List.range ((l.length + n - 1) / n)).map fun i => slice l (n * i) n

/-- The i-th element replaced by its image. -/
def modAt {α : Type} (l : List α) (i : Nat) (f : α → α) : List α := l.modify i f

/-- The first index at which a test holds. -/
def firstIdx {α : Type} (l : List α) (f : α → Bool) : Option Nat :=
  if l.findIdx f < l.length then some (l.findIdx f) else none

/-- How many bits are set below n. -/
def popCount (n v : Nat) : Nat := (List.range n).countP (bitAt v)

/-- The number whose bit i is f i, for i below n. -/
def ofBits (n : Nat) (f : Nat → Bool) : Nat := (List.range n).foldl (fun a i => a + b2n (f i) * 2 ^ i) 0

/-- The list of f i for i below n. -/
def tab {α : Type} (n : Nat) (f : Nat → α) : List α := (List.range n).map f

/-- The sum of a list of integers. -/
def isum (l : List Int) : Int := l.foldl (· + ·) 0

/-- A register's 64-bit value after a write under a mask. -/
def maskWrite (old mask val : Nat) : Nat := (old &&& (mask ^^^ (2 ^ 64 - 1))) ||| (val &&& mask)

end Sys2Proof.Machine
end

