-- ==== Sys2Proof/Machine/Fp.lean ====
section
/-! DEFINITION. fp32 and bf16: decoding, exact values, rounding to nearest even and stochastically (R83, R110-R117,
R126-R129, R587). Every operation forms its exact result and rounds it once. -/
namespace Sys2Proof.Machine

/-- The two floating formats (R83). -/
inductive Fmt where
  | fp32 | bf16
  deriving DecidableEq, Repr

/-- The precision in bits, the hidden bit included. -/
def Fmt.prec : Fmt → Nat
  | .fp32 => 24
  | .bf16 => 8

/-- A number as it stands in a format; a finite one is (-1)^neg * m * 2^e. -/
inductive Fp where
  | nan
  | inf (neg : Bool)
  | fin (neg : Bool) (m : Nat) (e : Int)
  deriving DecidableEq, Repr

/-- TSQ_VFLAGS bits (R129). -/
def vfUnder : BitVec 5 := 1
def vfOver : BitVec 5 := 2
def vfInvalid : BitVec 5 := 4
def vfSat : BitVec 5 := 8
def vfInv : BitVec 5 := 16

/-- The value a pattern denotes (R83, R112). -/
def Fp.decode (f : Fmt) (b : Nat) : Fp :=
  let p := f.prec - 1
  let neg := bitAt b (p + 8)
  let e := b / 2 ^ p % 256
  let m := b % 2 ^ p
  if e = 255 then (if m = 0 then .inf neg else .nan)
  else if e = 0 then .fin neg m (-126 - p)
  else .fin neg (m + 2 ^ p) ((e : Int) - 127 - p)

/-- The sign bit of a format placed. -/
def signBit (f : Fmt) (neg : Bool) : Nat := if neg then 2 ^ (f.prec + 7) else 0

/-- The canonical quiet NaN (R113). -/
def fpNaN : Fmt → Nat
  | .fp32 => 0x7FC00000
  | .bf16 => 0x7FC0

/-- An infinity. -/
def fpInf (f : Fmt) (neg : Bool) : Nat := signBit f neg + 255 * 2 ^ (f.prec - 1)

/-- The largest finite value. -/
def fpMax (f : Fmt) (neg : Bool) : Nat := fpInf f neg - 1

/-- A zero. -/
def fpZero (f : Fmt) (neg : Bool) : Nat := signBit f neg

/-- An exact magnitude m * 2^e with a sign; `more` says that the true magnitude lies strictly between m and m + 1 of
those units. -/
structure Exact where
  neg : Bool
  m : Nat
  e : Int
  more : Bool
  deriving DecidableEq, Repr

/-- An integer times a power of two, exactly; `zneg` is the sign of a zero. -/
def Exact.ofInt (v : Int) (e : Int) (zneg : Bool) : Exact :=
  { neg := if v = 0 then zneg else v < 0, m := v.natAbs, e := e, more := false }

/-- floor(log2) of a nonzero magnitude (R118, R337). -/
def Exact.top (x : Exact) : Int := x.e + (Nat.log2 x.m : Nat)

/-- The magnitude cut to units of 2^u: the whole units, the rest, and the width of the rest in bits. -/
def Exact.cut (x : Exact) (u : Int) : Nat × Nat × Nat :=
  if u ≤ x.e then (x.m * 2 ^ (x.e - u).toNat, 0, 0)
  else
    let k := (u - x.e).toNat
    (x.m / 2 ^ k, x.m % 2 ^ k, k)

/-- Whether cutting to units of 2^u discards a nonzero fraction. -/
def Exact.inexact (x : Exact) (u : Int) : Bool := (x.cut u).2.1 != 0 || x.more

/-- Whether the magnitude rounds up in units of 2^u: to nearest even, or by a random u16 (R126, R127). -/
def Exact.up (x : Exact) (u : Int) (rnd : Option Nat) : Bool :=
  let (q, r, k) := x.cut u
  match rnd with
  | none => decide (2 ^ k < 2 * r) || (decide (2 * r = 2 ^ k) && (x.more || q % 2 == 1))
  | some v => decide (v < r * 65536 / 2 ^ k)

/-- The magnitude rounded to units of 2^u. -/
def Exact.round (x : Exact) (u : Int) (rnd : Option Nat) : Nat := (x.cut u).1 + b2n (x.up u rnd)

/-- The unit in the last place of a nonzero result in a format. -/
def Exact.ulp (x : Exact) (f : Fmt) : Int := max x.top (-126) - (f.prec - 1 : Nat)

/-- Tininess after rounding as if the exponent range were unbounded (R587). -/
def Exact.tiny (x : Exact) (f : Fmt) (rnd : Option Nat) : Bool :=
  let u := x.top - (f.prec - 1 : Nat)
  decide (x.top < -127) || (decide (x.top = -127) && decide (x.round u rnd < 2 ^ f.prec))

/-- The value rounded once into a format: the pattern and the flags. Beyond the range it gives an infinity with overflow,
or, clamped, the largest finite value with sat (R103, R116, R128). -/
def Exact.toFp (x : Exact) (f : Fmt) (rnd : Option Nat) (clamp : Bool) : Nat × BitVec 5 :=
  if x.m = 0 && !x.more then (fpZero f x.neg, 0)
  else
    let u := x.ulp f
    let p := f.prec - 1
    let code := (u + 126 + p).toNat * 2 ^ p + x.round u rnd
    let under := if x.inexact u && x.tiny f rnd then vfUnder else 0
    if code < 255 * 2 ^ p then (signBit f x.neg + code, under)
    else if clamp then (fpMax f x.neg, vfSat)
    else (fpInf f x.neg, vfOver)

/-- Whether rounding into a format draws a random block (R126). -/
def Exact.draws (x : Exact) (f : Fmt) : Bool := (x.m != 0 || x.more) && x.inexact (x.ulp f)

/-- The value rounded to an integer and clamped: the integer and the flags (R116). -/
def Exact.toInt (x : Exact) (bits : Nat) (rnd : Option Nat) : Int × BitVec 5 :=
  let v : Int := x.round 0 rnd
  let v := if x.neg then -v else v
  (clampS bits v, if clampS bits v = v then 0 else vfSat)

/-- What an operation comes to before rounding: a finished pattern, or an exact value to round. -/
inductive Pre where
  | done (bits : Nat) (flags : BitVec 5)
  | value (x : Exact)
  deriving DecidableEq, Repr

/-- NaN produced from non-NaN inputs. -/
def Pre.invalid (f : Fmt) : Pre := .done (fpNaN f) vfInvalid

/-- The sum of two exact values: an exact zero is +0 unless both are -0. -/
def addExact (na : Bool) (ma : Nat) (ea : Int) (nb : Bool) (mb : Nat) (eb : Int) : Exact :=
  let e := min ea eb
  let a : Int := ma * 2 ^ (ea - e).toNat
  let b : Int := mb * 2 ^ (eb - e).toNat
  Exact.ofInt ((if na then -a else a) + (if nb then -b else b)) e (na && nb)

/-- Addition (R110). -/
def fpAdd (f : Fmt) : Fp → Fp → Pre
  | .nan, _ => .done (fpNaN f) 0
  | _, .nan => .done (fpNaN f) 0
  | .inf a, .inf b => if a = b then .done (fpInf f a) 0 else .invalid f
  | .inf a, .fin .. => .done (fpInf f a) 0
  | .fin .., .inf b => .done (fpInf f b) 0
  | .fin na ma ea, .fin nb mb eb =>
    if ma = 0 && mb = 0 then .done (fpZero f (na && nb)) 0 else
    let x := addExact na ma ea nb mb eb
    .value { x with neg := if x.m = 0 then false else x.neg }

/-- A number with its sign changed. -/
def Fp.negate : Fp → Fp
  | .nan => .nan
  | .inf n => .inf (!n)
  | .fin n m e => .fin (!n) m e

/-- An exact product, or none where it is infinity times zero. -/
def fpProd : Fp → Fp → Option Fp
  | .nan, _ => some .nan
  | _, .nan => some .nan
  | .inf a, .inf b => some (.inf (a != b))
  | .inf a, .fin b m _ => if m = 0 then none else some (.inf (a != b))
  | .fin a m _, .inf b => if m = 0 then none else some (.inf (a != b))
  | .fin a ma ea, .fin b mb eb => some (.fin (a != b) (ma * mb) (ea + eb))

/-- Multiplication (R110). -/
def fpMul (f : Fmt) (a b : Fp) : Pre :=
  match fpProd a b with
  | none => .invalid f
  | some .nan => .done (fpNaN f) 0
  | some (.inf n) => .done (fpInf f n) 0
  | some (.fin n m e) => .value { neg := n, m := m, e := e, more := false }

/-- Fused multiply-add, rounded once (R110). -/
def fpFma (f : Fmt) (a b c : Fp) : Pre :=
  match c with
  | .nan => .done (fpNaN f) 0
  | _ =>
    match fpProd a b with
    | none => .invalid f
    | some p => fpAdd f p c

/-- Division (R110): 100 bits of quotient and whether more follow. -/
def fpDiv (f : Fmt) : Fp → Fp → Pre
  | .nan, _ => .done (fpNaN f) 0
  | _, .nan => .done (fpNaN f) 0
  | .inf _, .inf _ => .invalid f
  | .inf a, .fin b _ _ => .done (fpInf f (a != b)) 0
  | .fin a _ _, .inf b => .done (fpZero f (a != b)) 0
  | .fin na ma ea, .fin nb mb eb =>
    if mb = 0 then (if ma = 0 then .invalid f else .done (fpInf f (na != nb)) 0)
    else
      let n := ma * 2 ^ 100
      .value { neg := na != nb, m := n / mb, e := ea - eb - 100, more := n % mb != 0 }

/-- Bits of an integer square root, from bit k down: root so far. -/
def isqrtFrom (n : Nat) : Nat → Nat → Nat
  | 0, r => r
  | k + 1, r => isqrtFrom n k (if (r + 2 ^ k) * (r + 2 ^ k) ≤ n then r + 2 ^ k else r)

/-- The integer square root. -/
def isqrt (n : Nat) : Nat := isqrtFrom n (Nat.log2 n / 2 + 1) 0

/-- Square root (R110). -/
def fpSqrt (f : Fmt) : Fp → Pre
  | .nan => .done (fpNaN f) 0
  | .inf n => if n then .invalid f else .done (fpInf f false) 0
  | .fin n m e =>
    if m = 0 then .done (fpZero f n) 0
    else if n then .invalid f
    else
      let m' := if e % 2 = 0 then m * 2 ^ 120 else m * 2 ^ 121
      let e' := if e % 2 = 0 then e - 120 else e - 121
      let r := isqrt m'
      .value { neg := false, m := r, e := e' / 2, more := r * r != m' }

/-- Order of two non-NaN numbers as integers of one scale; infinities lie outside. -/
def fpCompare : Fp → Fp → Ordering
  | .inf a, .inf b => if a = b then .eq else if a then .lt else .gt
  | .inf a, _ => if a then .lt else .gt
  | _, .inf b => if b then .gt else .lt
  | .fin na ma ea, .fin nb mb eb =>
    let e := min ea eb
    let a : Int := ma * 2 ^ (ea - e).toNat
    let b : Int := mb * 2 ^ (eb - e).toNat
    compare (if na then -a else a) (if nb then -b else b)
  | _, _ => .eq

/-- Whether a is below b in the order that puts -0.0 below +0.0 (R114). -/
def fpBelow (a b : Fp) : Bool :=
  match fpCompare a b with
  | .lt => true
  | .gt => false
  | .eq => match a, b with
    | .fin true 0 _, .fin false 0 _ => true
    | _, _ => false

/-- Minimum or maximum of two patterns (R114). -/
def fpMinMax (f : Fmt) (wantMax : Bool) (x y : Nat) : Nat :=
  let a := Fp.decode f x
  let b := Fp.decode f y
  if a = .nan || b = .nan then fpNaN f
  else if wantMax then (if fpBelow a b then y else x) else (if fpBelow b a then y else x)

/-- A compare by its code: eq, ne, lt, le, gt, ge. -/
def cmpCode (code : Nat) (o : Ordering) : Bool :=
  match code with
  | 0 => o == .eq
  | 1 => o != .eq
  | 2 => o == .lt
  | 3 => o != .gt
  | 4 => o == .gt
  | _ => o != .lt

/-- VCMP of two floating numbers (R114): only not-equal holds with a NaN. -/
def fpCmp (code : Nat) (a b : Fp) : Bool :=
  if a = .nan || b = .nan then code == 1 else cmpCode code (fpCompare a b)

/-- A number as an exact value times 2^s, or the pattern of a special one in a format. -/
def fpScale (f : Fmt) (s : Int) : Fp → Pre
  | .nan => .done (fpNaN f) 0
  | .inf n => .done (fpInf f n) 0
  | .fin n m e => .value { neg := n, m := m, e := e + s, more := false }

/-- One fp32 addition to nearest even: pattern and flags. -/
def add32 (x y : Nat) : Nat × BitVec 5 :=
  match fpAdd .fp32 (Fp.decode .fp32 x) (Fp.decode .fp32 y) with
  | .done b fl => (b, fl)
  | .value v => v.toFp .fp32 none false

/-- One level of the tree of R121. -/
def treeLevel : List Nat → List Nat × BitVec 5
  | x :: y :: r =>
    let (v, f) := add32 x y
    let (vs, fs) := treeLevel r
    (v :: vs, f ||| fs)
  | l => (l, 0)

/-- The tree of R121, level by level; `fuel` bounds the levels. -/
def treeSum : Nat → List Nat → BitVec 5 → Nat × BitVec 5
  | 0, l, f => (l.headD 0, f)
  | _ + 1, [], f => (0x80000000, f)
  | _ + 1, [x], f => (if Fp.decode .fp32 x = .nan then fpNaN .fp32 else x, f)
  | n + 1, l, f => let (l', f') := treeLevel l; treeSum n l' (f ||| f')

end Sys2Proof.Machine
end

