-- ==== Sys2Proof/Machine/Real.lean ====
section
/-! DEFINITION. The functions of VTRN (R164, R165) and the logistic function of the anchor units (R209), computed in fixed
point with 640 fraction bits and rounded once (log entry 13, UNVERIFIED for the hardest operands). -/
namespace Sys2Proof.Machine

/-- One in fixed point. -/
def fixOne : Nat := 2 ^ 640

/-- v * 2^e in fixed point. -/
def fixOf (v e : Int) : Int := if 0 ≤ e + 640 then v * 2 ^ (e + 640).toNat else v / 2 ^ (-(e + 640)).toNat

/-- The inverse hyperbolic tangent of z, |z| at most 1/3, by its series. -/
def atanhFix (z : Int) : Int :=
  ((List.range 220).foldl (fun (st : Int × Int) k =>
    (st.1 + st.2 / (2 * k + 1 : Nat), st.2 * z / fixOne * z / fixOne)) (0, z)).1

/-- The natural logarithm of 2. -/
def ln2Fix : Int := 2 * atanhFix (fixOne / 3 : Nat)

/-- e^r for small r: the series at r / 1024, squared ten times. -/
def expSmall (r : Int) : Nat :=
  let q := r / 1024
  let s := ((List.range 64).foldl (fun (st : Int × Int) i =>
    (st.1 + st.2, st.2 * q / ((i + 2 : Nat) * fixOne : Int))) ((fixOne : Int), q)).1
  (List.range 10).foldl (fun v _ => v * v / fixOne) s.toNat

/-- e^x as a fixed-point number times a power of two. -/
def expFix (x : Int) : Nat × Int :=
  let k := x / ln2Fix
  (expSmall (x - k * ln2Fix), k)

/-- The natural logarithm of m * 2^e, m nonzero. -/
def lnFix (m : Nat) (e : Int) : Int :=
  let l := Nat.log2 m
  let l := if 3 * 2 ^ l ≤ 2 * m then l + 1 else l
  let z := ((m : Int) - (2 ^ l : Nat)) * fixOne / (m + 2 ^ l : Nat)
  (e + l) * ln2Fix + 2 * atanhFix z

/-- A fixed-point result as an exact value that more digits follow. -/
def Exact.ofFix (v : Int) (k : Int) : Exact :=
  { neg := v < 0, m := v.natAbs, e := k - 640, more := true }

/-- 1 as an exact value. -/
def exactOne : Exact := { neg := false, m := 1, e := 0, more := false }

/-- An argument held to ±1,024, beyond which every result rounds alike. -/
def holdArg (neg : Bool) (m : Nat) (e : Int) : Int :=
  let big := 10 < e + (Nat.log2 m : Nat)
  let v : Int := if big then 1024 * fixOne else fixOf m e
  if neg then -v else v

/-- The logistic function of a nonzero (-1)^neg * m * 2^e. -/
def logisticExact (neg : Bool) (m : Nat) (e : Int) : Exact :=
  let (t, k) := expFix (holdArg true m e)
  let t1 := t * 2 ^ 400 / 2 ^ (400 - k).toNat
  if neg then Exact.ofFix (t * fixOne / (fixOne + t1) : Nat) k
  else Exact.ofFix (fixOne * fixOne / (fixOne + t1) - b2n (t1 == 0) : Nat) 0

/-- e^x of a nonzero number. -/
def expExact (neg : Bool) (m : Nat) (e : Int) : Exact :=
  let (t, k) := expFix (holdArg neg m e)
  Exact.ofFix t k

/-- 2^x of a nonzero number: exact for an integer. -/
def exp2Exact (neg : Bool) (m : Nat) (e : Int) : Exact :=
  let x := holdArg neg m e
  let n := x / fixOne
  let f := x % fixOne
  if f = 0 then { exactOne with e := n }
  else
    let (t, k) := expFix (f * ln2Fix / fixOne)
    Exact.ofFix t (k + n)

/-- ln or log2 of a positive number; exact at 1, and for log2 at a power of two. -/
def logExact (base2 : Bool) (m : Nat) (e : Int) : Exact :=
  let l := Nat.log2 m
  if m = 2 ^ l && (base2 || e + l = 0) then Exact.ofInt (e + l) 0 false
  else
    let v := lnFix m e
    Exact.ofFix (if base2 then v * fixOne / ln2Fix else v) 0

/-- tanh of a nonzero number; near 0 it lies just below the argument. -/
def tanhExact (neg : Bool) (m : Nat) (e : Int) : Exact :=
  if e + (Nat.log2 m : Nat) < -60 then { neg := neg, m := m * 2 ^ 100 - 1, e := e - 100, more := true }
  else
    let (t, k) := expFix (2 * holdArg true m e)
    let t1 := t * 2 ^ 3200 / 2 ^ (3200 - k).toNat
    { Exact.ofFix ((fixOne - t1) * fixOne / (fixOne + t1) - b2n (t1 == 0) : Nat) 0 with neg := neg }

/-- 1/√x of a positive number: the integer root of 2^400 / m and whether more digits follow. -/
def rsqrtExact (m : Nat) (e : Int) : Exact :=
  let m := if e % 2 = 0 then m else 2 * m
  let e := if e % 2 = 0 then e else e - 1
  let n := 2 ^ 400 / m
  let r := isqrt n
  { neg := false, m := r, e := -200 - e / 2, more := r * r * m != 2 ^ 400 }

/-- VTRN's function by its selector (R164, R165). -/
def transcend (sel : Nat) (f : Fmt) : Fp → Pre
  | .nan => .done (fpNaN f) 0
  | .inf neg =>
    match sel with
    | 0 | 2 => .done (if neg then fpZero f false else fpInf f false) 0
    | 1 | 3 => if neg then .invalid f else .done (fpInf f false) 0
    | 4 => if neg then .done (fpZero f false) 0 else .value exactOne
    | 5 => .value { exactOne with neg := neg }
    | _ => if neg then .invalid f else .done (fpZero f false) 0
  | .fin neg m e =>
    if m = 0 then
      match sel with
      | 0 | 2 => .value exactOne
      | 1 | 3 => .done (fpInf f true) 0
      | 4 => .value { exactOne with e := -1 }
      | 5 => .done (fpZero f neg) 0
      | _ => .done (fpInf f neg) 0
    else
      match sel with
      | 0 => .value (exp2Exact neg m e)
      | 1 => if neg then .invalid f else .value (logExact true m e)
      | 2 => .value (expExact neg m e)
      | 3 => if neg then .invalid f else .value (logExact false m e)
      | 4 => .value (logisticExact neg m e)
      | 5 => .value (tanhExact neg m e)
      | _ => if neg then .invalid f else .value (rsqrtExact m e)

end Sys2Proof.Machine
end

