-- ==== Sys2Proof/Machine/Mem.lean ====
section
/-! DEFINITION. Memory operations over the canonical list of cells (log entry 5, DESIGN CHOICE): an unlisted byte reads 0. -/
namespace Sys2Proof.Machine

/-- One byte. -/
def Mem.get (m : Mem) (a : Nat) : Byte :=
  match m.find? (fun c => c.1 == a) with
  | some c => c.2
  | none => 0

/-- The n bytes from a, walking the cells once. -/
def Mem.walk : Nat → Mem → Nat → List Byte
  | 0, _, _ => []
  | n + 1, [], a => 0 :: Mem.walk n [] (a + 1)
  | n + 1, c :: r, a => if c.1 = a then c.2 :: Mem.walk n r (a + 1) else 0 :: Mem.walk n (c :: r) (a + 1)

/-- The n bytes from a. -/
def Mem.read (m : Mem) (a n : Nat) : List Byte := Mem.walk n (m.dropWhile fun c => c.1 < a) a

/-- The cells of bytes laid from a, without the zeros. -/
def Mem.cells : Nat → List Byte → Mem
  | _, [] => []
  | a, b :: r => if b = 0 then Mem.cells (a + 1) r else (a, b) :: Mem.cells (a + 1) r

/-- The memory with bytes written from a. -/
def Mem.write (m : Mem) (a : Nat) (l : List Byte) : Mem :=
  m.filter (fun c => c.1 < a) ++ Mem.cells a l ++ m.filter (fun c => a + l.length ≤ c.1)

/-- The memory with n bytes from a made 0. -/
def Mem.clear (m : Mem) (a n : Nat) : Mem := m.filter (fun c => c.1 < a) ++ m.filter (fun c => a + n ≤ c.1)

/-- A little-endian number of n bytes. -/
def Mem.readLe (m : Mem) (a n : Nat) : Nat := leNat (m.read a n)

/-- A little-endian number of n bytes stored. -/
def Mem.writeLe (m : Mem) (a n v : Nat) : Mem := m.write a (leBytes n v)

end Sys2Proof.Machine
end

