-- ==== Sys2Proof/Machine/Ops.lean ====
section
/-! DEFINITION. The named operations over the state that the meanings share: tiles and halves, clauses, interrupts and
outputs, tallies, clause SRAM, HBM with its bad lines and exact cells, faults and completions. -/
namespace Sys2Proof.Machine

/-! ## Tiles, halves, clauses -/

/-- The enabled tile count N. -/
def State.nTiles (s : State) : Nat := s.fuse.tileMap.length

/-- Logical tile t. -/
def State.tile (s : State) (t : Nat) : Tile := s.tiles.getD t Tile.reset

/-- One tile changed. -/
def State.modTile (s : State) (t : Nat) (f : Tile → Tile) : State := { s with tiles := s.tiles.modify t f }

/-- Whether logical tile t lies in the East half (R19). -/
def State.tileEast (s : State) (t : Nat) : Bool := s.nTiles / 2 ≤ t

/-- Whether the core runs: its rails are up and RESET_N is high. -/
def State.up (s : State) : Bool := s.pwr.core == .running

/-- Whether a half runs (R324). -/
def State.halfUp (s : State) (east : Bool) : Bool := s.up && (!east || s.dev.eastAwake)

/-- Whether transfers into a half complete with HALF_ASLEEP (R324). -/
def State.halfClosed (s : State) (east : Bool) : Bool := east && (!s.dev.eastAwake || s.dev.closing)

/-- Whether logical tile t exists and its half runs. -/
def State.tileUp (s : State) (t : Nat) : Bool := decide (t < s.nTiles) && s.halfUp (s.tileEast t)

/-- The physical ID of logical tile t (R21). -/
def State.physOf (s : State) (t : Nat) : Nat := s.fuse.tileMap.getD t 0x3FF

/-- The logical tile that occupies a physical ID. -/
def State.logicalOf (s : State) (phys : Nat) : Option Nat := firstIdx s.fuse.tileMap (· == phys)

/-- A spin event's 32 bits: state, phase modulo 16, tile, unit (R200). -/
def spinWord (state : Bool) (phase : BitVec 32) (tile unit : Nat) : BitVec 32 :=
  BitVec.ofBool state ++ phase.extractLsb' 0 4 ++ BitVec.ofNat 9 tile ++ BitVec.ofNat 9 unit ++ (0 : BitVec 9)

/-- The new state a spin event tells. -/
def SpinEv.state (e : SpinEv) : Bool := e.word.getLsbD 31

/-- Its sender's logical tile. -/
def SpinEv.tile (e : SpinEv) : Nat := (e.word.extractLsb' 18 9).toNat

/-- Its sender's unit. -/
def SpinEv.unit (e : SpinEv) : Nat := (e.word.extractLsb' 9 9).toNat

/-- Whether a half is the East one. -/
def isEast : Half → Bool
  | .west => false
  | .east => true

/-- The policy in force: all 0 with no weave. -/
def State.policy (s : State) : Policy := (s.weave.installed.map (·.policy)).getD {}

/-- TSQ_VFLAGS of a slot: its live phrase's flags, or what the phrase that ended there last left (R129; log entry 89,
DEDUCED). -/
def State.flagsOf (s : State) (t p : Nat) : BitVec 5 :=
  match (s.tile t).slots.getD p none with
  | some ph => ph.vflags
  | none => (s.tile t).endFlags.getD p 0

/-- An installed clause's record. -/
def State.clauseRec (s : State) (c : Nat) : Option ClauseRec :=
  s.weave.installed.bind fun w => w.clauses.find? fun r => r.id == c

/-- An installed clause's member tiles. -/
def State.members (s : State) (c : Nat) : List Nat := ((s.clauseRec c).map (·.members)).getD []

/-- The state of an installed clause. -/
def State.clauseSt (s : State) (c : Nat) : Option ClauseSt := s.clauses.find? fun x => x.id == c

/-- The state of a clause changed. -/
def State.modClause (s : State) (c : Nat) (f : ClauseSt → ClauseSt) : State :=
  { s with clauses := s.clauses.map fun x => if x.id = c then f x else x }

/-- An installed clause with nothing run yet: every stop at generation 0. -/
def ClauseSt.fresh (c : Nat) : ClauseSt :=
  { id := c, gens := List.replicate 16 0, run := none, frozen := false, satMask := 0, struck := none, uncorr := false }

/-- Whether a clause is frozen by a fault (R174). -/
def State.frozen (s : State) (c : Nat) : Bool := ((s.clauseSt c).map (·.frozen)).getD false

/-- The program of a clause. -/
def State.progOf (s : State) (c : Nat) : Option ProgRec :=
  s.weave.installed.bind fun w => w.programs.find? fun r => r.clause == c

/-- A tile's live phrases. -/
def Tile.live (T : Tile) : List Phrase := T.slots.filterMap id

/-- The phrase in slot p of tile t. -/
def State.phraseAt (s : State) (t p : Nat) : Option Phrase := (s.tile t).slots.getD p none

/-- A phrase slot written. -/
def State.setPhrase (s : State) (t p : Nat) (ph : Option Phrase) : State :=
  s.modTile t fun T => { T with slots := T.slots.set p ph }

/-- The MEMPLAN regions of the installed weave. -/
def State.regions (s : State) : List Region := (s.weave.installed.map (·.memplan)).getD []

/-- Whether a region's mask names a clause. -/
def Region.grants (r : Region) (c : Nat) : Bool := r.clauses.getLsbD c

/-- Whether n bytes at a lie in a region. -/
def Region.holds (r : Region) (a n : Nat) : Bool := decide (r.base ≤ a) && decide (a + n ≤ r.base + r.len)

/-- The region that holds byte a, with its index in MEMPLAN order. -/
def State.regionAt (s : State) (a : Nat) : Option (Nat × Region) :=
  let i := s.regions.findIdx fun r => r.holds a 1
  s.regions[i]?.map fun r => (i, r)

/-- Whether a mailbox request holds a tile (R523). -/
def State.mbHeld (s : State) (t : Nat) : Bool := s.mboxW.holds.contains t || s.mboxE.holds.contains t

/-! ## Key-store entries, and the checks made on two paths (R454-R456, R484) -/

/-- Whether key-store entry k is present (R454). -/
def State.hasKey (s : State) (k : Nat) : Bool := s.sec.store.any fun e => e.k == k

/-- Entry k. -/
def State.key (s : State) (k : Nat) : Option KeyEntry := s.sec.store.find? fun e => e.k == k

/-- Whether the two paths of a check agree when it is next made. -/
def State.agrees (s : State) (c : Check) : Bool := !s.sec.upset.contains c

/-- Paths that have disagreed: one authentication failure, whose alarm comes as its command ends (R484; log entry 102). -/
def State.disagree (s : State) (c : Check) : State :=
  if s.agrees c then s
  else { s with sec := { s.sec with upset := s.sec.upset.erase c }, alm := { s.alm with authRun := s.alm.authRun + 1 } }

/-- A check made on two paths: its outcome where they agree, else a failure. -/
def State.twice (s : State) (c : Check) (ok : Bool) : Bool × State := (ok && s.agrees c, s.disagree c)

/-- Whether the tag of an entry passes. -/
def State.tagPasses (s : State) (e : KeyEntry) : Bool := !e.torn && s.agrees (.entry e.k)

/-- Whether entry k is present and its tag passes. -/
def State.keyPasses (s : State) (k : Nat) : Bool := (s.key k).any s.tagPasses

/-- The entry of a PGKEYS slot that a use has found with a failing tag: erased and counted (R456). -/
def State.loseSlot (s : State) (slot : Nat) : State :=
  if decide (slot < 16) && s.hasKey (4 + slot) && !s.keyPasses (4 + slot) then
    let s := s.disagree (.entry (4 + slot))
    { s with sec := { s.sec with store := s.sec.store.filter fun e => e.k != 4 + slot, ksBad := satAdd 8 s.sec.ksBad 1 } }
  else s

/-- The installed key of a PGKEYS slot granted to a clause (R60, R170). -/
def State.grantedKey (s : State) (c slot : Nat) : Option (List Byte) :=
  s.weave.installed.bind fun w =>
    (w.pgkeys.find? fun k => k.slot == slot && k.mask.getLsbD c).bind fun k =>
      if s.hasKey (4 + slot) then some k.key else none

/-- That key as a draw finds it: an entry whose tag fails is absent (R456). -/
def State.pgKey (s : State) (c slot : Nat) : Option (List Byte) :=
  if s.keyPasses (4 + slot) then s.grantedKey c slot else none

/-! ## Interrupts and outputs -/

/-- Something sent out. -/
def State.emit (s : State) (o : Output) : State := { s with out := s.out ++ [o] }

/-- A bit of DEV_IRQ_STAT set by an event; vector 0 is sent when it rises while enabled (R403). -/
def State.raise (s : State) (bit : Nat) : State :=
  let rise := !s.dev.irqStat.getLsbD bit && s.dev.irqMask.getLsbD bit
  let s := { s with dev := { s.dev with irqStat := s.dev.irqStat ||| (1 <<< bit) } }
  if rise then s.emit (.msix 0) else s

/-- DEV_IRQ_STAT bits. -/
def irqLinkFail : Nat := 0
def irqHbmUncorr : Nat := 1
def irqHbmFatal : Nat := 2
def irqEntFail : Nat := 3
def irqAlarm : Nat := 4
def irqCalFail : Nat := 5
def irqQueueErr : Nat := 6

/-! ## Tallies (R535-R540) -/

/-- n counts added to the counters of a tile that count an event, each stopping at 2^48 - 1 (R535). -/
def Tile.tally (cfg : TallyCfg) (ev n : Nat) (T : Tile) : Tile :=
  if cfg.dedicated then { T with cnt := T.cnt.modify ev fun v => satAdd 48 v n }
  else { T with cnt := (T.cnt.zipIdx).map fun vk => if cfg.events[vk.2]? = some ev then satAdd 48 vk.1 n else vk.1 }

/-- n counts of an event on tile t. -/
def State.tally (s : State) (t ev n : Nat) : State := s.modTile t (Tile.tally s.tly.cfg ev n)

/-- Bytes in the 64-byte units of the byte counts, a part of a unit counting as one (log entry 21, DEDUCED). -/
def units64 (n : Nat) : Nat := (n + 63) / 64

/-! ## Clause SRAM (R27) -/

/-- Bytes of one tile's SRAM. -/
def sramSize : Nat := 0x180000

/-- The parts of n bytes at clause address a, as member index, offset and length. -/
def sramParts (a n : Nat) : List (Nat × Nat × Nat) :=
  if n = 0 then [] else
  (List.range ((a + n - 1) / sramSize + 1 - a / sramSize)).map fun j =>
    let k := a / sramSize + j
    let lo := max a (k * sramSize)
    (k, lo - k * sramSize, min (a + n) ((k + 1) * sramSize) - lo)

/-- n bytes read from a clause's SRAM. -/
def State.sramRead (s : State) (members : List Nat) (a n : Nat) : List Byte :=
  (sramParts a n).flatMap fun (k, o, m) => (s.tile (members.getD k 0)).sram.read o m

/-- Bytes written to a clause's SRAM. -/
def State.sramWrite (s : State) (members : List Nat) (a : Nat) (l : List Byte) : State :=
  (sramParts a l.length).foldl (fun s kom =>
    s.modTile (members.getD kom.1 0) fun T =>
      { T with sram := T.sram.write kom.2.1 (slice l (kom.1 * sramSize + kom.2.1 - a) kom.2.2) }) s

/-- The direction of the physical tile b from its neighbour a: 0 north, 1 east (over the seam too), 2 south, 3 west; row 0
is the north edge (R18, R22, R348). -/
def neighbourDir (a b : Nat) : Option Nat :=
  let ha := a / 512
  let hb := b / 512
  let ca := 20 * ha + a / 16 % 32
  let cb := 20 * hb + b / 16 % 32
  let ra := a % 16
  let rb := b % 16
  if ca = cb && ra = rb + 1 then some 0
  else if cb = ca + 1 && ra = rb then some 1
  else if ca = cb && rb = ra + 1 then some 2
  else if ca = cb + 1 && ra = rb then some 3
  else none

/-- The declared neighbour windows (R51). -/
def State.windows (s : State) : List RouteRec :=
  ((s.weave.installed.map (·.routes)).getD []).filter fun r => r.kind == 2

/-- Whether a window is declared between two tiles. -/
def State.windowed (s : State) (t u : Nat) : Bool :=
  s.windows.any fun r => (r.src == t && r.dst == u) || (r.src == u && r.dst == t)

/-! ## HBM (12, 10) -/

/-- Bytes of one stack (R388). -/
def stackSize : Nat := 0xC00000000

/-- The end of the addresses that software may use: the top 1 GiB is Jaset's (R390). -/
def hbmUserEnd : Nat := 0x8FC0000000

/-- The end of local HBM. -/
def hbmEnd : Nat := 0x9000000000

/-- A stack's registers. -/
def State.stack (s : State) (i : Nat) : Stack := s.hbmStacks.getD i Stack.reset

/-- A stack's registers changed. -/
def State.modStack (s : State) (i : Nat) (f : Stack → Stack) : State := { s with hbmStacks := s.hbmStacks.modify i f }

/-- Whether the line that holds byte a meets an uncorrected error: a bad line, or a stack that is offline (R393). -/
def State.struckAt (s : State) (a : Nat) : Bool := s.bad.contains (a / 64) || (s.stack (a / stackSize)).offline

/-- The 64-byte lines that n bytes at a touch. -/
def linesOf (a n : Nat) : List Nat :=
  if n = 0 then [] else (List.range ((a + n - 1) / 64 + 1 - a / 64)).map (a / 64 + ·)

/-- The struck lines among those that n bytes at a touch. -/
def State.struckLines (s : State) (a n : Nat) : List Nat :=
  (linesOf a n).filter fun l => s.struckAt (64 * l)

/-- The reports of one uncorrected line: HBM_ERR.uncorr, HBM_UADDR, DEV_IRQ_STAT.hbm_uncorr (R393). A line of an offline
stack was reported when the stack went offline. -/
def State.noteUncorr (s : State) (line : Nat) : State :=
  let i := 64 * line / stackSize
  if (s.stack i).offline then s
  else
    (s.modStack i fun k =>
      { k with uncorr := satAdd 16 k.uncorr 1, uaValid := true,
               uaAddr := if k.uaValid then k.uaAddr else 64 * line }).raise irqHbmUncorr

/-- n bytes of HBM as a read returns them: zeros for the bytes of struck lines (R393). -/
def State.hbmBytes (s : State) (a n : Nat) : List Byte :=
  let l := s.hbm.read a n
  if (s.struckLines a n).isEmpty then l
  else l.mapIdx fun i b => if s.struckAt (a + i) then 0 else b

/-- A read of HBM: the bytes, the state with the errors it met reported, and the address of the lowest struck line. -/
def State.hbmRead (s : State) (a n : Nat) : List Byte × State × Option Nat :=
  let st := s.struckLines a n
  (s.hbmBytes a n, st.foldl State.noteUncorr s, st.head?.map (64 * ·))

/-- Whether an exact cell and n bytes at a overlap. -/
def ExactCell.meets (c : ExactCell) (a n : Nat) : Bool := decide (c.addr < a + n) && decide (a < c.addr + c.width)

/-- Bytes written to HBM otherwise than by an atomic: a bad line so touched becomes good with 0 in every byte the write
does not supply (R597), and the exact value of every cell touched is set from its bytes (R346). Lines of an offline
stack are not written. -/
def State.hbmWriteRaw (s : State) (a : Nat) (l : List Byte) : State :=
  let heal := (linesOf a l.length).filter fun i => s.bad.contains i
  let m := heal.foldl (fun m i => m.clear (64 * i) 64) s.hbm
  { s with
    hbm := m.write a l
    bad := s.bad.filter fun i => !heal.contains i
    exact := s.exact.filter fun c => !(c.meets a l.length || heal.any fun i => c.meets (64 * i) 64) }

/-- The first offline stack that n bytes at a touch. -/
def State.firstOffline (s : State) (a n : Nat) : Option Nat :=
  ((List.range ((a + n - 1) / stackSize + 1 - a / stackSize)).map (a / stackSize + ·)).find? fun i => (s.stack i).offline

/-- A write to HBM, and the address of the lowest line of an offline stack that it met: what lies before it is written. -/
def State.hbmWrite (s : State) (a : Nat) (l : List Byte) : State × Option Nat :=
  if l.isEmpty then (s, none)
  else
    match s.firstOffline a l.length with
    | none => (s.hbmWriteRaw a l, none)
    | some i =>
      if i * stackSize ≤ a then (s, some (a / 64 * 64))
      else (s.hbmWriteRaw a (l.take (i * stackSize - a)), some (i * stackSize))

/-- Whether a byte of HBM lies in the East half's stacks (R388). -/
def hbmEast (a : Nat) : Bool := 6 * stackSize ≤ a

/-- Whether an access to local HBM completes with HALF_ASLEEP (R395). -/
def State.hbmAsleep (s : State) (a n : Nat) : Bool := hbmEast (a + n - 1) && s.halfClosed true

/-- NOC_SEAM.asleep counts a transfer completed with HALF_ASLEEP (R348). -/
def State.noteAsleep (s : State) : State := { s with dev := { s.dev with asleep := satAdd 16 s.dev.asleep 1 } }

/-- The exact value of a cell of a width in bytes at an address (R588). -/
def State.exactOf (s : State) (a w : Nat) : Int :=
  match s.exact.find? fun c => c.addr == a && c.width == w with
  | some c => c.val
  | none => signed (8 * w) (s.hbm.readLe a w)

/-- The exact value of a cell set: the stored bytes hold it clamped, guard bits stand only where it differs (R588). -/
def State.setExact (s : State) (a w : Nat) (v : Int) : State :=
  let c := clampS (8 * w) v
  let rest := s.exact.filter fun x => !x.meets a w
  { s with hbm := s.hbm.writeLe a w (unsigned (8 * w) c)
           exact := if c = v then rest else rest ++ [{ addr := a, width := w, val := v }] }

/-- The guard bound of a cell (R344). -/
def guardBound (w : Nat) : Int := if w = 4 then 2 ^ 39 - 1 else 2 ^ 79 - 1

/-- An atomic's operation on an exact value (R343): code [1:0] 0 add, 1 min, 2 max. -/
def atomOp (code : BitVec 3) (v a : Int) : Int :=
  match code.toNat % 4 with
  | 0 => v + a
  | 1 => min v a
  | _ => max v a

/-- The cell width of an atomic code (R343). -/
def atomWidth (code : BitVec 3) : Nat := if code.getLsbD 2 then 8 else 4

/-- One atomic at its controller (R343, R344, R347): the state, whether it met an uncorrected error, whether its cell was
held at its guard bound. -/
def State.atomic (s : State) (a : Nat) (code : BitVec 3) (operand : Int) : State × Bool × Bool :=
  let w := atomWidth code
  if s.struckAt a then
    ({ s.noteUncorr (a / 64) with dev := { (s.noteUncorr (a / 64)).dev with aUncorr := true } }, true, false)
  else
    let s := { s with dev := { s.dev with aCount := satAdd 48 s.dev.aCount 1 } }
    let v := atomOp code (s.exactOf a w) operand
    let g := guardBound w
    let held := decide (g < v) || decide (v < -g)
    let s := s.setExact a w (max (-g) (min g v))
    if held then
      ({ s with dev := { s.dev with
          aGuard := true
          aGuardRegion := if s.dev.aGuard then s.dev.aGuardRegion else ((s.regionAt a).map (·.1)).getD 0 } }, false, true)
    else (s, false, false)

/-! ## Faults (R174-R177) -/

/-- A sequencer fault recorded on a tile, the first since its clause's last LAUNCH only, and its clause frozen. -/
def State.fault (s : State) (t p pc cause : Nat) (detail : BitVec 32) (addr : BitVec 64) : State :=
  let s := s.modTile t fun T =>
    if T.fault.valid then T
    else { T with fault := { valid := true, cause := cause, phrase := p, pc := pc, detail := detail,
                             addr := if cause = 3 || cause = 4 || cause = 5 then addr else 0 } }
  let s := s.tally t 0x1D 1
  match (s.tile t).clause with
  | some c => s.modClause c fun x => { x with frozen := true }
  | none => s

/-- A saturation of the run of a clause recorded under a cause (R414). -/
def State.noteSat (s : State) (c cause : Nat) : State :=
  s.modClause c fun x => if x.run.isSome then { x with satMask := x.satMask ||| (1 <<< cause) } else x

/-- The lower of two addresses that may be absent. -/
def optMin : Option Nat → Option Nat → Option Nat
  | some a, some b => some (min a b)
  | some a, none => some a
  | none, b => b

/-- An uncorrected error that struck a run's transfer, with the struck line's local address where it has one (R139, R413). -/
def State.noteRunUncorr (s : State) (c : Nat) (line : Option Nat) : State :=
  s.modClause c fun x =>
    if x.run.isSome then { x with uncorr := true, struck := optMin x.struck line } else x

/-! ## Commands (12) -/

/-- Status codes (R421). -/
def stOK : Nat := 0x00
def stEmpty : Nat := 0x01
def stNoData : Nat := 0x02
def stWeaveHdr : Nat := 0x10
def stWeaveDigest : Nat := 0x11
def stWeaveShape : Nat := 0x12
def stWeaveStrand : Nat := 0x13
def stWeaveRoute : Nat := 0x14
def stWeaveTree : Nat := 0x15
def stWeaveBusy : Nat := 0x16
def stWeaveNone : Nat := 0x17
def stCtxShape : Nat := 0x20
def stCtxKey : Nat := 0x21
def stHalfAsleep : Nat := 0x30
def stSat : Nat := 0x40
def stUncorr : Nat := 0x41
def stHostErr : Nat := 0x42
def stAuth : Nat := 0x50
def stLocked : Nat := 0x51
def stAlarmed : Nat := 0x52
def stFwHdr : Nat := 0x60
def stFwSig : Nat := 0x61
def stFwCompat : Nat := 0x62
def stFwBusy : Nat := 0x63
def stFault : Nat := 0x70
def stTksArg : Nat := 0x71
def stCmdArg : Nat := 0x72
def stCmdOpcode : Nat := 0x73
def stAborted : Nat := 0x74

/-- A started command by its number. -/
def State.cmd (s : State) (id : Nat) : Option Started := s.started.find? fun c => c.id == id

/-- A started command changed. -/
def State.modCmd (s : State) (id : Nat) (f : Started → Started) : State :=
  { s with started := s.started.map fun c => if c.id = id then f c else c }

/-- A command finished with a status and its details; it is finished once. -/
def State.finish (s : State) (id status : Nat) (d0 d1 d2 : Nat) : State :=
  s.modCmd id fun c =>
    if c.fin.isSome then c
    else { c with fin := some { status := status, detail0 := BitVec.ofNat 64 d0, detail1 := BitVec.ofNat 64 d1,
                                detail2 := BitVec.ofNat 64 d2 } }

/-- Whether a started command waits for a SANITIZE fetched before it (R471). -/
def State.afterSanitize (s : State) (id : Nat) : Bool :=
  s.started.any fun c => c.opcode == 0x07 && c.fin.isNone && decide (c.id < id)

/-- Whether the chief steward executes commands: the core runs, it is ready, it is not held (R34, R509, R534). -/
def State.chiefRuns (s : State) : Bool := s.up && s.dev.ready && !s.mboxW.held

/-- Whether the steward of a half works: the half runs its firmware, and the steward is not held (R34, R534). -/
def State.stewardRuns (s : State) (east : Bool) : Bool :=
  s.halfUp east && s.dev.ready && !(if east then s.mboxE.held else s.mboxW.held)

/-- A started command of one opcode that has not finished and may proceed, given to its meaning; anything else changes
nothing. -/
def State.withCmd (s : State) (id opcode : Nat) (f : Started → State) : State :=
  match s.cmd id with
  | some c => if c.opcode = opcode && c.fin.isNone && s.chiefRuns && !s.afterSanitize id then f c else s
  | none => s

/-- The commands that the chief steward runs one at a time in the order it starts them (R69, R463). -/
def serialOps : List Nat := [0x01, 0x02, 0x41, 0x12, 0x10, 0x11, 0x07]

/-- Whether a command's turn has come among those run one at a time. -/
def State.serialTurn (s : State) (id : Nat) : Bool :=
  !s.started.any fun c => serialOps.contains c.opcode && c.fin.isNone && decide (c.id < id)

/-- A field of a descriptor. -/
def Started.le (c : Started) (o n : Nat) : Nat := leAt c.desc o n

/-- A descriptor's param0. -/
def Started.param0 (c : Started) : Nat := c.le 4 4

/-- Completion with CMD_ARG at a descriptor offset (R413). -/
def State.cmdArg (s : State) (id off : Nat) : State := s.finish id stCmdArg off 0 0

/-- Whether ALARM_N is asserted: some source is latched (R482). -/
def State.alarmed (s : State) : Bool := s.alm.latched != 0

/-- Whether the host's side of the part serves: the core runs and the chief steward is ready. -/
def State.hostUp (s : State) : Bool := s.up && s.dev.ready

end Sys2Proof.Machine
end

