-- ==== Sys2Proof/Machine/Flags.lean ====
section
/-! DEFINITION. The sticky flags of a phrase and what setting them records (R129, R414). -/
namespace Sys2Proof.Machine

/-- The tally events of TSQ_VFLAGS bits set from 0 to 1: sat, invalid, overflow, underflow, inv (R540). -/
def flagEvents (old new : BitVec 5) : List Nat :=
  let rose := new &&& ~~~old
  (if rose.getLsbD 3 then [0x5A] else []) ++ (if rose.getLsbD 2 then [0x5B] else []) ++
    (if rose.getLsbD 1 then [0x5C] else []) ++ (if rose.getLsbD 0 then [0x5D] else []) ++
    (if rose.getLsbD 4 then [0x5E] else [])

/-- Flags raised for a phrase: they stick (R129). -/
def Phrase.raiseFlags (ph : Phrase) (fl : BitVec 5) : Phrase := { ph with vflags := ph.vflags ||| fl }

/-- What raising flags records beside the phrase: the tally events, and the run's saturation when sat is set (R414). -/
def State.recordFlags (s : State) (t c : Nat) (old fl : BitVec 5) : State :=
  let s := (flagEvents old (old ||| fl)).foldl (fun s e => s.tally t e 1) s
  if fl.getLsbD 3 then s.noteSat c 0 else s

end Sys2Proof.Machine
end

