-- ==== Sys2Proof/Machine/Pg.lean ====
section
/-! DEFINITION. The pairing generator (R279-R281) and the positions it is called at (R284-R286). -/
namespace Sys2Proof.Machine

/-- Rotation constants RA (R281). -/
def pgRA : List Nat := [11, 5, 19, 8, 25, 14, 3, 22, 17, 9, 28, 6]

/-- Rotation constants RB (R281). -/
def pgRB : List Nat := [7, 23, 13, 30, 2, 18, 26, 10, 21, 15, 4, 29]

/-- Injection constants C (R281). -/
def pgC : List Nat := [0x6B1D43A5, 0x2E97C8F3, 0xD4A05E17, 0x9C3F71B9]

/-- A 32-bit rotation to the left. -/
def rotl32 (v n : Nat) : Nat := (v <<< n) % 2 ^ 32 ||| v >>> (32 - n)

/-- The state of the generator, x[0] to x[3]. -/
structure PgX where
  x0 : Nat
  x1 : Nat
  x2 : Nat
  x3 : Nat
  deriving DecidableEq, Repr

/-- Round r, 1 to 12, without its key injection: the word rotation is applied by renaming. -/
def pgRound (x : PgX) (r : Nat) : PgX :=
  let a := (x.x0 + rotl32 x.x3 (pgRA.getD (r - 1) 0)) % 2 ^ 32
  let c := x.x2 ^^^ a
  let b := (x.x1 + rotl32 c (pgRB.getD (r - 1) 0)) % 2 ^ 32
  { x0 := b, x1 := c, x2 := x.x3 ^^^ b, x3 := a }

/-- Key injection j (R280). -/
def pgInject (key : List Nat) (x : PgX) (j : Nat) : PgX :=
  let k := fun i => key.getD ((i + j) % 4) 0 ^^^ pgC.getD ((i + j) % 4) 0
  { x0 := (x.x0 + k 0) % 2 ^ 32, x1 := (x.x1 + k 1) % 2 ^ 32,
    x2 := (x.x2 + k 2) % 2 ^ 32 ^^^ (j * 0x01010101) % 2 ^ 32, x3 := (x.x3 + k 3) % 2 ^ 32 }

/-- The key words of a 16-byte key (R280). -/
def pgKeyWords (key : List Byte) : List Nat := tab 4 fun i => leAt key (4 * i) 4

/-- PG(key, stream, position): the four words of the block (R279, R280). -/
def pgBlock (key : List Byte) (stream pos : Nat) : List Nat :=
  let k := pgKeyWords key
  let x := (List.range 12).foldl (fun x i =>
      let x := pgRound x (i + 1)
      if (i + 1) % 3 = 0 then pgInject k x ((i + 1) / 3) else x)
    { x0 := pos % 2 ^ 32, x1 := stream % 2 ^ 32, x2 := pos / 2 ^ 32 % 2 ^ 32, x3 := stream / 2 ^ 32 % 2 ^ 32 }
  [x.x0, x.x1, x.x2, x.x3]

/-- The random u16 of stochastic rounding: block bits [127:112] (R126, R290). -/
def pgRnd (w : List Nat) : Nat := w.getD 3 0 / 65536

/-- The lane counters and the count of a run of draws. -/
structure Draws where
  ctr : List Nat
  n : Nat
  wrapped : Bool
  deriving DecidableEq, Repr

/-- One draw for a lane: in element mode at the given position, in lane mode at the thread's counter, which then advances
and wraps past 2^40 - 1 (R284-R286). -/
def drawBlock (key : List Byte) (laneMode : Bool) (stream pos tid lane : Nat) (d : Draws) : List Nat × Draws :=
  if laneMode then
    let c := d.ctr.getD lane 0
    (pgBlock key stream (tid % 2 ^ 24 * 2 ^ 40 + c),
     { ctr := d.ctr.set lane ((c + 1) % 2 ^ 40), n := d.n + 1, wrapped := d.wrapped || c + 1 == 2 ^ 40 })
  else (pgBlock key stream (pos % 2 ^ 64), { d with n := d.n + 1 })

end Sys2Proof.Machine
end

