-- ==== Sys2Proof/Machine/Operands.lean ====
section
/-! DEFINITION. How a sequencer instruction issues: when it may, which of its fields are legal, how it reads and writes the
registers of its phrase, and what its completion, its fault or its wait does to the state (R131, R132, R155-R157, R174). -/
namespace Sys2Proof.Machine

/-! ## Registers of a phrase (R132) -/

/-- s[i]; s0 reads 0. -/
def Phrase.rs (ph : Phrase) (i : BitVec 5) : BitVec 64 := if i = 0 then 0 else ph.s.getD i.toNat 0

/-- s[i] written; s0 ignores writes. -/
def Phrase.ws (ph : Phrase) (i : BitVec 5) (v : BitVec 64) : Phrase :=
  if i = 0 then ph else { ph with s := ph.s.set i.toNat v }

/-- v[i], 64 lanes. -/
def Phrase.rv (ph : Phrase) (i : Nat) : List (BitVec 32) := ph.v.getD i []

/-- Lane l of v[i]. -/
def Phrase.lane (ph : Phrase) (i l : Nat) : BitVec 32 := (ph.rv i).getD l 0

/-- v[i] written whole. -/
def Phrase.wv (ph : Phrase) (i : Nat) (v : List (BitVec 32)) : Phrase := { ph with v := ph.v.set i v }

/-- p[i]; p0 reads all ones. -/
def Phrase.rp (ph : Phrase) (i : Nat) : BitVec 64 := if i = 0 then BitVec.allOnes 64 else ph.p.getD i 0

/-- p[i] written; p0 ignores writes. -/
def Phrase.wp (ph : Phrase) (i : Nat) (v : BitVec 64) : Phrase := if i = 0 then ph else { ph with p := ph.p.set i v }

/-- The lanes below the lane count, as a mask (R132). -/
def Phrase.laneMask (ph : Phrase) : BitVec 64 := BitVec.ofNat 64 (2 ^ min ph.lanes 64 - 1)

/-- p[pr] XOR pn. -/
def Phrase.guard (ph : Phrase) (f : Fields) : BitVec 64 :=
  if f.pn = 1 then ~~~(ph.rp f.pr.toNat) else ph.rp f.pr.toNat

/-- The active lanes of a lane-wise instruction (R132, R156). -/
def Phrase.active (ph : Phrase) (f : Fields) : BitVec 64 := ph.guard f &&& ph.laneMask

/-- Active lanes of a register replaced, the others kept. -/
def mergeLanes (act : BitVec 64) (old : List (BitVec 32)) (f : Nat → BitVec 32) : List (BitVec 32) :=
  tab 64 fun l => if act.getLsbD l then f l else old.getD l 0

/-- A new phrase (R133, R137): registers 0 but those given, flags clear, no key slot, no arrival. -/
def Phrase.fresh (pc lanes base : Nat) (args : List (BitVec 64)) : Phrase :=
  { pc := pc, lanes := lanes, base := base,
    s := [0, BitVec.ofNat 64 base, BitVec.ofNat 64 lanes] ++ List.replicate 13 0 ++ tab 16 fun i => args.getD i 0,
    v := List.replicate 32 (List.replicate 64 0), p := List.replicate 8 0, loops := [],
    rctx := { slot := none, lane := false, stream := 0, pos := List.replicate 64 0 },
    ctr := List.replicate 64 0, tags := List.replicate 16 0, vflags := 0, arrived := List.replicate 16 none }

/-! ## The program counter (R158, R159) -/

/-- The index after pc, and the loop stack: a body's last instruction repeats the body or leaves it, innermost first. -/
def loopNext (pc : Nat) : List LoopEnt → Nat × List LoopEnt
  | [] => (pc + 1, [])
  | l :: r =>
    if l.stop = pc then
      if 1 < l.remaining then (l.start, { l with remaining := l.remaining - 1 } :: r) else loopNext pc r
    else (pc + 1, l :: r)

/-- The phrase past the instruction at its pc. -/
def Phrase.advance (ph : Phrase) : Phrase :=
  let (pc, l) := loopNext ph.pc ph.loops
  { ph with pc := pc, loops := l }

/-! ## Issue -/

/-- Where an instruction runs: the state, its tile, phrase slot, phrase and clause, and its fields. -/
structure Ctx where
  s : State
  t : Nat
  p : Nat
  T : Tile
  ph : Phrase
  c : Nat
  cr : ClauseRec
  f : Fields
  deriving DecidableEq, Repr

/-- The fields an instruction uses: the register fields, the immediate bits, whether it is lane-wise (R156), whether pr
and pn are its condition (BRANY, BRALL). -/
structure Use where
  d : Bool := false
  a : Bool := false
  b : Bool := false
  c : Bool := false
  imm : BitVec 32 := 0
  lanewise : Bool := false
  cond : Bool := false
  deriving DecidableEq, Repr

/-- Unused fields and reserved immediate bits are 0, and only a lane-wise instruction carries a guard (R155, R156). -/
def Use.legal (u : Use) (f : Fields) : Bool :=
  (u.d || f.d == 0) && (u.a || f.a == 0) && (u.b || f.b == 0) && (u.c || f.c == 0) && (f.imm &&& ~~~u.imm == 0) &&
    (u.lanewise || u.cond || (f.pr == 0 && f.pn == 0))

/-- What an instruction comes to: it waits at issue, raises a fault (with TSQ_FAULT.detail where it is not the
instruction's high word), raises the array fault with its own cause (R106), or completes with a state, its phrase (none
when the phrase ends) and the flags it raises. -/
inductive Res where
  | wait
  | fault (cause : Nat) (addr : BitVec 64) (detail : Option (BitVec 32))
  | arrayFault (cause : Nat)
  | lostKey (slot : Nat)
  | ok (s : State) (ph : Option Phrase) (fl : BitVec 5)
  deriving DecidableEq, Repr

/-- The illegal-instruction fault (R155). -/
def Res.illegal : Res := .fault 1 0 none

/-- A fault without an address. -/
def Res.bad (cause : Nat) : Res := .fault cause 0 none

/-- Completion: the phrase goes on to the next instruction. -/
def Res.done (s : State) (ph : Phrase) : Res := .ok s (some ph.advance) 0

/-- Completion with flags raised. -/
def Res.doneFl (s : State) (ph : Phrase) (fl : BitVec 5) : Res := .ok s (some ph.advance) fl

/-- The low 32 bits of an instruction's upper half: op, pr, pn, d, a, b, c (R155). -/
def wordHigh (op : BitVec 8) (f : Fields) : BitVec 32 := op ++ f.pr ++ f.pn ++ f.d ++ f.a ++ f.b ++ f.c

/-- The 64-bit word of an instruction (R155). -/
def wordOf (op : BitVec 8) (f : Fields) : BitVec 64 := wordHigh op f ++ f.imm

/-- Where an instruction can issue: its tile runs and belongs to a clause that no fault has frozen, its phrase is live and
stands at that instruction, and neither a hold nor a debug hold stops the tile, unless it is the step commanded
(R34, R131, R174, R532). -/
def State.issuable (s : State) (t p : Nat) (op : BitVec 8) (f : Fields) : Option Ctx :=
  let T := s.tile t
  match s.phraseAt t p, T.clause with
  | some ph, some c =>
    match s.clauseRec c with
    | some rec =>
      if s.tileUp t && !s.frozen c && !T.held && !s.mbHeld t &&
          (!T.dbg.held || (T.dbg.stepPending && T.dbg.stepPhrase.toNat == p)) && T.imem[ph.pc]? == some (wordOf op f) then
        some { s := s, t := t, p := p, T := T, ph := ph, c := c, cr := rec, f := f }
      else none
    | none => none
  | _, _ => none

/-- A debug hold taken on a tile; the first cause stays recorded (R530). -/
def State.debugHold (s : State) (t reason phrase bp pc : Nat) : State :=
  if (s.tile t).dbg.held then s
  else
    (s.modTile t fun T =>
      { T with dbg := { T.dbg with held := true, reason := reason, phrase := phrase, bp := bp, pc := pc,
                                   stepPending := false } }).tally t 0x1E 1

/-- The clause's other members held with reason 5, when bp_clause asks for it (R530). -/
def State.holdMates (s : State) (t : Nat) (members : List Nat) : State :=
  if (s.tile t).dbg.bpClause then
    members.foldl (fun s m => if m = t then s else s.debugHold m 5 0 0 0) s
  else s

/-- The breakpoint that a phrase's next instruction hits; a stepped instruction hits none (R530, R532). -/
def bpHit (T : Tile) (p pc : Nat) : Option Nat :=
  if T.dbg.held then none
  else firstIdx T.dbg.bps fun b => b.enable && b.pc.toNat == pc && (b.anyPhrase || b.phrase.toNat == p)

/-- The class event of an opcode: array, vector, memory, every other (R540). -/
def classEvent (op : BitVec 8) : Nat :=
  match op.toNat / 16 with
  | 1 => 0x0E
  | 2 => 0x0C
  | 3 => 0x0D
  | 4 => 0x0D
  | _ => 0x0F

/-- What an issue counts: the step, its class, the live phrases (R540). -/
def State.tallyIssue (s : State) (t : Nat) (op : BitVec 8) : State :=
  ((s.tally t 0x10 1).tally t (classEvent op) 1).tally t 0x17 (s.tile t).live.length

/-- A stepped tile held again once its instruction has completed (R532), and the slot that issued last (R131). -/
def Tile.issued (p pc : Nat) (T : Tile) : Tile :=
  { T with lastIssue := p
           dbg := if T.dbg.stepPending then { T.dbg with stepPending := false, reason := 4, phrase := p, pc := pc }
                  else T.dbg }

/-- The state after an instruction that has executed: s' with what the issue counts, the new sticky flags recorded, the phrase in
its slot (none once it has ended), and the slot that issued last. -/
def Ctx.retire (x : Ctx) (op : BitVec 8) (s' : State) (ph : Option Phrase) (fl : BitVec 5) : State :=
  (((s'.tallyIssue x.t op).recordFlags x.t x.c x.ph.vflags fl).setPhrase x.t x.p (ph.map fun q => q.raiseFlags fl)).modTile
    x.t (Tile.issued x.p ((ph.map (·.pc)).getD 0))

/-- The state after an instruction whose issue raises a fault of a cause: it changes nothing else (R174). -/
def Ctx.retireFault (x : Ctx) (op : BitVec 8) (cause : Nat) (addr : BitVec 64) (detail : Option (BitVec 32)) : State :=
  (x.s.fault x.t x.p x.ph.pc cause (detail.getD (wordHigh op x.f)) addr).modTile x.t (Tile.issued x.p x.ph.pc)

/-- The state after an instruction that raises the array fault: cause 2, with its own cause in TSQ_ARR_STAT (R106). -/
def Ctx.retireArray (x : Ctx) (op : BitVec 8) (cause : Nat) : State :=
  (((x.s.fault x.t x.p x.ph.pc 2 (wordHigh op x.f) 0).modTile x.t fun T =>
    { T with au := { T.au with faultCause := cause } }).tally x.t 0x0B 1).modTile x.t (Tile.issued x.p x.ph.pc)

/-- An instruction issued by its command: it does nothing where it cannot issue; an armed breakpoint holds the tile
instead; an illegal form faults; else the body decides. -/
def issue (op : BitVec 8) (u : Use) (t p : Nat) (f : Fields) (body : Ctx → Res) (s : State) :
    Host.Outcome State Fault Refusal :=
  match s.issuable t p op f with
  | none => .next s
  | some x =>
    match bpHit x.T p x.ph.pc with
    | some b => .next (((s.debugHold t 2 p b x.ph.pc).tally t 0x1F 1).holdMates t x.cr.members)
    | none =>
      match (if u.legal f then body x else Res.illegal) with
      | .wait => .next s
      | .fault cause addr detail =>
        .next (x.retireFault op cause addr detail)
      | .arrayFault cause => .next (x.retireArray op cause)
      | .lostKey slot => .next ((x.retireFault op 10 0 none).loseSlot slot)
      | .ok s' ph fl => .next (x.retire op s' ph fl)

/-! ## Random draws (R169, R170, R289) -/

/-- No draw made yet by this instruction. -/
def Phrase.draws (ph : Phrase) : Draws := { ctr := ph.ctr, n := 0, wrapped := false }

/-- The tile engine's counters after an instruction's draws (R286, R308, R540). -/
def State.tookDraws (s : State) (t : Nat) (d : Draws) (sr : Bool) : State :=
  let s := s.modTile t fun T => { T with pgBlocks := satAdd 48 T.pgBlocks d.n, lwrap := T.lwrap || d.wrapped }
  let s := s.tally t 0x1A d.n
  if sr then s.tally t 0x1B d.n else s

/-- A lane-mode draw waits while the phrase's own run draws in lane mode on a tile with anchors (R289). -/
def Ctx.laneDrawWaits (x : Ctx) (laneMode : Bool) : Bool :=
  laneMode && x.T.os.hasAnchors &&
    match x.T.os.run with
    | some r => r.slot == x.p && r.ctx.lane
    | none => false

/-- The key of a slot granted to the clause (R170). -/
def Ctx.key (x : Ctx) (slot : Nat) : Option (List Byte) := x.s.pgKey x.c slot

/-- The key of the rounding context (R170). -/
def Ctx.rctxKey (x : Ctx) : Option (List Byte) := x.ph.rctx.slot.bind x.key

/-- The random fault of an instruction that finds no key in the rounding context (R170). -/
def Ctx.noKey (x : Ctx) : Res :=
  match x.ph.rctx.slot with
  | some k => .lostKey k
  | none => .bad 10

/-- The block that rounds an element: in element mode at the lane's position, one on for the element in bits [31:16]
(R169). -/
def Ctx.roundBlock (x : Ctx) (key : List Byte) (lane elem : Nat) (d : Draws) : List Nat × Draws :=
  drawBlock key x.ph.rctx.lane x.ph.rctx.stream.toNat ((x.ph.rctx.pos.getD lane 0).toNat + elem) (x.ph.base + lane) lane d

/-- An element finished: a value is rounded to a format, with a block drawn where rounding is stochastic and inexact. -/
def Ctx.finishFp (x : Ctx) (key : Option (List Byte)) (fmt : Fmt) (lane elem : Nat) (v : Pre) (d : Draws) :
    Nat × BitVec 5 × Draws :=
  match v with
  | .done b fl => (b, fl, d)
  | .value e =>
    match key with
    | some k =>
      if e.draws fmt then
        let (w, d) := x.roundBlock k lane elem d
        let (b, fl) := e.toFp fmt (some (pgRnd w)) false
        (b, fl, d)
      else
        let (b, fl) := e.toFp fmt none false
        (b, fl, d)
    | none =>
      let (b, fl) := e.toFp fmt none false
      (b, fl, d)

/-- A value rounded to units of 2^u by the instruction's rounding. -/
def Ctx.roundUnits (x : Ctx) (key : Option (List Byte)) (u : Int) (lane : Nat) (e : Exact) (d : Draws) : Nat × Draws :=
  match key with
  | some k =>
    if e.inexact u then
      let (w, d) := x.roundBlock k lane 0 d
      (e.round u (some (pgRnd w)), d)
    else (e.round u none, d)
  | none => (e.round u none, d)

/-! ## Clause SRAM as an instruction addresses it (R145, R160) -/

/-- Bytes of the clause's address space. -/
def Ctx.sramEnd (x : Ctx) : Nat := x.cr.members.length * sramSize

/-- Whether n bytes at a lie in clause SRAM and a is aligned (R160). -/
def Ctx.sramOk (x : Ctx) (a n align : Nat) : Bool := a % align == 0 && decide (a + n ≤ x.sramEnd)

/-- This tile's member index. -/
def Ctx.member (x : Ctx) : Nat := x.cr.members.idxOf x.t

/-- What an access of n bytes counts (R540): local bytes; reads through a direct window by its direction, in 256-byte
units; an access a window carries by fall-back; an access over the bulk network. -/
def State.tallySram (s : State) (x : Ctx) (a n : Nat) (write : Bool) : State :=
  (sramParts a n).foldl (fun s kom =>
    let u := x.cr.members.getD kom.1 0
    if u = x.t then s.tally x.t (if write then 0x21 else 0x20) (units64 kom.2.2)
    else if x.s.windowed x.t u then
      match neighbourDir (x.s.physOf x.t) (x.s.physOf u) with
      | some d => if write then s else s.tally x.t (0x24 + d) ((kom.2.2 + 255) / 256)
      | none => s.tally x.t 0x28 1
    else s.tally x.t 0x23 1) s

/-- Whether a part of a tile (tile, offset, length) holds byte o of tile u. -/
def partHas (u o : Nat) (k : Nat × Nat × Nat) : Bool := k.1 == u && decide (k.2.1 ≤ o) && decide (o < k.2.1 + k.2.2)

/-- The place of byte o of tile u in a list of parts laid end to end. -/
def partIndex (u o : Nat) : List (Nat × Nat × Nat) → Option Nat
  | [] => none
  | k :: r => if partHas u o k then some (o - k.2.1) else (partIndex u o r).map (k.2.2 + ·)

/-- What byte o of tile u reads as while a fill of it is not awaited: a free byte, unless it has been stored to since (R146;
log entry 92). -/
def Fill.byteAt (u o : Nat) (k : Fill) : Option Byte :=
  if k.newer.any (partHas u o) then none else (partIndex u o k.parts).map fun i => Config.freeByte (k.free + i)

/-- The same among the fills of every member of a clause. -/
def State.openByte (s : State) (members : List Nat) (u o : Nat) : Option Byte :=
  members.findSome? fun t => (s.tile t).fills.findSome? (Fill.byteAt u o)

/-- n bytes of a clause's SRAM as an instruction reads them (R146). -/
def State.sramSeen (s : State) (members : List Nat) (a n : Nat) : List Byte :=
  if members.all fun t => (s.tile t).fills.isEmpty then s.sramRead members a n
  else (sramParts a n).flatMap fun kom =>
    let u := members.getD kom.1 0
    ((s.tile u).sram.read kom.2.1 kom.2.2).mapIdx fun i b => (s.openByte members u (kom.2.1 + i)).getD b

/-- n bytes of clause SRAM. -/
def Ctx.load (x : Ctx) (a n : Nat) : List Byte := x.s.sramSeen x.cr.members a n

/-- The parts of tiles that n bytes of a clause's SRAM lie in. -/
def tileParts (members : List Nat) (a n : Nat) : List (Nat × Nat × Nat) :=
  (sramParts a n).map fun kom => (members.getD kom.1 0, kom.2.1, kom.2.2)

/-- Parts stored to, entered with a tile's fills: those bytes hold what was stored, and a fill under way leaves them
alone. -/
def Tile.overlay (parts : List (Nat × Nat × Nat)) (T : Tile) : Tile :=
  { T with fills := T.fills.map fun k => { k with newer := k.newer ++ parts } }

/-- The state after n bytes of a clause's SRAM have been stored to (R146). -/
def State.stored (s : State) (members : List Nat) (a n : Nat) : State :=
  members.foldl (fun s t => s.modTile t (Tile.overlay (tileParts members a n))) s

/-- Bytes that a phrase stores to its clause's SRAM. -/
def State.store (s : State) (members : List Nat) (a : Nat) (l : List Byte) : State :=
  (s.sramWrite members a l).stored members a l.length

/-- The outstanding operations of a phrase that PEND and ARRIVE wait for (R138, R153). -/
def State.outstanding (s : State) (t p : Nat) : Bool :=
  (s.tile t).dmas.any (fun d => d.slot == p) || s.atoms.any (fun a => !a.isFold && a.tile == t && a.slot == p)

end Sys2Proof.Machine
end

