-- ==== Sys2Proof/Machine/SeqControl.lean ====
section
/-! DEFINITION. Control and scalar instructions, 0x00 to 0x0F (R133-R142, R155-R159). -/
namespace Sys2Proof.Machine

/-- The opcodes the instruction tables assign (R155). -/
def assignedOp (op : Nat) : Bool :=
  decide (op ≤ 0x19) || (decide (0x20 ≤ op) && decide (op ≤ 0x23)) || (decide (0x30 ≤ op) && decide (op ≤ 0x43)) ||
    (decide (0x50 ≤ op) && decide (op ≤ 0x57)) || (decide (0x60 ≤ op) && decide (op ≤ 0x62)) ||
    (decide (0x70 ≤ op) && decide (op ≤ 0x72)) || (decide (0x80 ≤ op) && decide (op ≤ 0x82)) ||
    (decide (0x90 ≤ op) && decide (op ≤ 0x92)) || op == 0xA0 || op == 0xA1 || op == 0xB0

/-- The opcode of the word at a phrase's pc. -/
def State.opAt (s : State) (t p : Nat) : BitVec 8 :=
  match s.phraseAt t p with
  | some ph => (((s.tile t).imem[ph.pc]?).getD 0).extractLsb' 56 8
  | none => 0

/-- NOP. Its command also stands for the issue of a word whose opcode no table assigns, which is illegal (R155; log
entry 22, DEDUCED). -/
def execNop (t p : Nat) (f : Fields) (s : State) : Host.Outcome State Fault Refusal :=
  let op := s.opAt t p
  if assignedOp op.toNat then issue 0x00 {} t p f (fun x => .done x.s x.ph) s
  else issue op { d := true, a := true, b := true, c := true, imm := BitVec.allOnes 32, cond := true } t p f
    (fun _ => Res.illegal) s

/-- A branch: the target must lie within the program, and within the innermost open loop body (R158, R159); both are
checked whether or not it is taken (log entry 23, DEDUCED). -/
def branchRes (x : Ctx) (taken : Bool) : Res :=
  let target : Int := x.ph.pc + x.f.imm.toInt
  let inside := match x.ph.loops with
    | [] => true
    | l :: _ => decide ((l.start : Int) ≤ target) && decide (target ≤ l.stop)
  if target < 0 || (x.T.imem.length : Int) ≤ target || !inside then .bad 6
  else if taken then .ok x.s (some { x.ph with pc := target.toNat }) 0
  else .done x.s x.ph

/-- BR. -/
def execBr (t p : Nat) (f : Fields) (s : State) : Host.Outcome State Fault Refusal :=
  issue 0x01 { imm := BitVec.allOnes 32 } t p f (fun x => branchRes x true) s

/-- BRZ. -/
def execBrz (t p : Nat) (f : Fields) (s : State) : Host.Outcome State Fault Refusal :=
  issue 0x02 { a := true, imm := BitVec.allOnes 32 } t p f (fun x => branchRes x (x.ph.rs x.f.a == 0)) s

/-- BRNZ. -/
def execBrnz (t p : Nat) (f : Fields) (s : State) : Host.Outcome State Fault Refusal :=
  issue 0x03 { a := true, imm := BitVec.allOnes 32 } t p f (fun x => branchRes x (x.ph.rs x.f.a != 0)) s

/-- BRANY: pr and pn form the condition over the lanes below the lane count (R156). -/
def execBrany (t p : Nat) (f : Fields) (s : State) : Host.Outcome State Fault Refusal :=
  issue 0x04 { imm := BitVec.allOnes 32, cond := true } t p f (fun x => branchRes x (x.ph.active x.f != 0)) s

/-- BRALL. -/
def execBrall (t p : Nat) (f : Fields) (s : State) : Host.Outcome State Fault Refusal :=
  issue 0x05 { imm := BitVec.allOnes 32, cond := true } t p f
    (fun x => branchRes x (x.ph.active x.f == x.ph.laneMask)) s

/-- LOOP's effect (R159). -/
def loopRes (x : Ctx) : Res :=
  let n := x.f.imm.toNat % 2 ^ 13
  let stop := x.ph.pc + n
  let count := (x.ph.rs x.f.a).toNat % 2 ^ 32
  let inside := match x.ph.loops with
    | [] => true
    | l :: _ => decide (stop ≤ l.stop)
  if n = 0 || 4096 < n then .illegal
  else if x.T.imem.length ≤ stop || 4 ≤ x.ph.loops.length || !inside then .bad 6
  else if count = 0 then .done x.s { x.ph with pc := stop }
  else .ok x.s (some { x.ph with
    pc := x.ph.pc + 1, loops := { start := x.ph.pc + 1, stop := stop, remaining := count } :: x.ph.loops }) 0

/-- LOOP. -/
def execLoop (t p : Nat) (f : Fields) (s : State) : Host.Outcome State Fault Refusal :=
  issue 0x06 { a := true, imm := 0x1FFF } t p f loopRes s

/-- The first logical thread ID reserved to root phrases (R133, R135). -/
def rootIdBase : Nat := 0xFFFE00

/-- The work items of a PLAUNCH (R134). -/
def launchItems (ph : Phrase) (base n entry : Nat) : List WorkItem :=
  tab ((n + 63) / 64) fun j =>
    { base := base + 64 * j, lanes := min 64 (n - 64 * j), entry := entry, args := ph.s.drop 16, resume := none }

/-- PLAUNCH's effect (R134-R136). -/
def plaunchRes (x : Ctx) : Res :=
  let n := (x.ph.rs x.f.b).toNat % 2 ^ 32
  let base := (x.ph.rs x.f.a).toNat
  let entry := x.f.imm.toNat % 2 ^ 13
  if n = 0 then .done x.s x.ph
  else if 65536 < n || rootIdBase < base + n || x.T.imem.length ≤ entry then .bad 7
  else
    let items := launchItems x.ph base n entry
    if 1024 < x.T.wq.length + items.length then .wait
    else .done ((x.s.modTile x.t fun T => { T with wq := T.wq ++ items }).tally x.t 0x14 items.length) x.ph

/-- PLAUNCH. -/
def execPlaunch (t p : Nat) (f : Fields) (s : State) : Host.Outcome State Fault Refusal :=
  issue 0x07 { a := true, b := true, imm := 0x1FFF } t p f plaunchRes s

/-- A run goes on without the phrase that issued it: no store, transfer or contribution waits for it (R138). -/
def Tile.orphanRun (p : Nat) (T : Tile) : Tile :=
  { T with os := { T.os with run := T.os.run.map fun r => if r.slot = p then { r with slot := 64 } else r } }

/-- What a phrase that ends leaves: its flags stay in TSQ_VFLAGS of its slot until user code clears them or a phrase starts
there (R129; log entry 89, DEDUCED), and what it has filled and not awaited stays undefined (R146). -/
def Tile.ended (p : Nat) (fl : BitVec 5) (T : Tile) : Tile :=
  { T with
    endFlags := T.endFlags.set p fl
    fills := T.fills.map fun k => if k.slot = p then { k with slot := 64 } else k }

/-- PEND's effect (R138). -/
def pendRes (x : Ctx) : Res :=
  if x.T.au.isOpen && x.T.au.owner == x.p then .bad 6
  else if x.s.outstanding x.t x.p then .wait
  else .ok ((x.s.modTile x.t fun T => (T.orphanRun x.p).ended x.p x.ph.vflags).tally x.t 0x13 1) none 0

/-- PEND. -/
def execPend (t p : Nat) (f : Fields) (s : State) : Host.Outcome State Fault Refusal :=
  issue 0x08 {} t p f pendRes s

/-- SMOV: imm sign-extended. -/
def execSmov (t p : Nat) (f : Fields) (s : State) : Host.Outcome State Fault Refusal :=
  issue 0x09 { d := true, imm := BitVec.allOnes 32 } t p f
    (fun x => .done x.s (x.ph.ws x.f.d (x.f.imm.signExtend 64))) s

/-- SMOVH: bits [63:32] replaced. -/
def execSmovh (t p : Nat) (f : Fields) (s : State) : Host.Outcome State Fault Refusal :=
  issue 0x0A { d := true, imm := BitVec.allOnes 32 } t p f
    (fun x => .done x.s (x.ph.ws x.f.d (x.f.imm ++ (x.ph.rs x.f.d).extractLsb' 0 32))) s

/-- A SALU function by its code, where the table lists one; shift counts use bits [5:0]. -/
def salu64 (fn : Nat) (x y : BitVec 64) : Option (BitVec 64) :=
  match fn with
  | 0 => some (x + y)
  | 1 => some (x - y)
  | 2 => some (x * y)
  | 3 => some (x &&& y)
  | 4 => some (x ||| y)
  | 5 => some (x ^^^ y)
  | 6 => some (x <<< (y.toNat % 64))
  | 7 => some (x >>> (y.toNat % 64))
  | 8 => some (x.sshiftRight (y.toNat % 64))
  | 9 => some (if x.slt y then x else y)
  | 10 => some (if x.slt y then y else x)
  | 11 => some (if x.ult y then x else y)
  | 12 => some (if x.ult y then y else x)
  | 13 => some (if x.slt y then 1 else 0)
  | 14 => some (if x.ult y then 1 else 0)
  | _ => none

/-- The result of SALU and SALUI. -/
def saluRes (x : Ctx) (y : BitVec 64) : Res :=
  match salu64 (x.f.imm.toNat % 16) (x.ph.rs x.f.a) y with
  | some v => .done x.s (x.ph.ws x.f.d v)
  | none => .illegal

/-- SALU. -/
def execSalu (t p : Nat) (f : Fields) (s : State) : Host.Outcome State Fault Refusal :=
  issue 0x0B { d := true, a := true, b := true, imm := 0xF } t p f (fun x => saluRes x (x.ph.rs x.f.b)) s

/-- SALUI: the operand is imm[31:4] sign-extended. -/
def execSalui (t p : Nat) (f : Fields) (s : State) : Host.Outcome State Fault Refusal :=
  issue 0x0C { d := true, a := true, imm := BitVec.allOnes 32 } t p f
    (fun x => saluRes x ((x.f.imm.extractLsb' 4 28).signExtend 64)) s

/-- A member's place in its gang, row and column, by its member index (R50). -/
def gangPos (cr : ClauseRec) (k : Nat) : Nat × Nat := ((k % (cr.gangA * cr.gangB)) / cr.gangB, k % cr.gangB)

/-- The special values of SRD (R142). -/
def srdValue (x : Ctx) : Option Nat :=
  match x.f.imm.toNat with
  | 0 => some x.member
  | 1 => some x.cr.members.length
  | 2 => some x.t
  | 3 => some x.c
  | 4 => some x.p
  | 5 => some x.ph.base
  | 6 => some x.ph.lanes
  | 7 => some ((gangPos x.cr x.member).1 * 256 + (gangPos x.cr x.member).2)
  | 8 => some (if x.s.policy.det = 1 then 0 else x.s.timer)
  | 9 => some x.s.policy.det
  | _ => none

/-- SRD. -/
def execSrd (t p : Nat) (f : Fields) (s : State) : Host.Outcome State Fault Refusal :=
  issue 0x0D { d := true, imm := BitVec.allOnes 32 } t p f
    (fun x => match srdValue x with
      | some v => .done x.s (x.ph.ws x.f.d (BitVec.ofNat 64 v))
      | none => .illegal) s

/-- VFLAGS: the flags read, then those set in imm[4:0] cleared (R129). -/
def execVflags (t p : Nat) (f : Fields) (s : State) : Host.Outcome State Fault Refusal :=
  issue 0x0E { d := true, imm := 0x1F } t p f
    (fun x => .done x.s ({ x.ph with vflags := x.ph.vflags &&& ~~~(x.f.imm.extractLsb' 0 5) }.ws x.f.d
      (x.ph.vflags.setWidth 64))) s

/-- UTRAP: the user trap with detail imm (R176). -/
def execUtrap (t p : Nat) (f : Fields) (s : State) : Host.Outcome State Fault Refusal :=
  issue 0x0F { imm := BitVec.allOnes 32 } t p f (fun x => .fault 15 0 (some x.f.imm)) s

end Sys2Proof.Machine
end

