-- ==== Sys2Proof/Machine/SeqArray.lean ====
section
/-! DEFINITION. The array: opens, held loads, multiply-accumulates, drains and gangs (R87-R108, R161, R162, R342, R595). -/
namespace Sys2Proof.Machine

/-! ## Modes and operands (R88, R161, R162) -/

/-- Block modes, B8 and B4. -/
def blockMode (m : Nat) : Bool := m == 2 || m == 3

/-- Chunks of a stream row: two in I4 and B4. -/
def chunksOf (m : Nat) : Nat := if m = 1 || m = 3 then 2 else 1

/-- Array steps for a stream row: two in S16. -/
def stepsOf (m : Nat) : Nat := if m = 5 then 2 else 1

/-- Bytes of a stream row's elements: spins pack 64 to 8 bytes (R84). -/
def rowBytes (m : Nat) : Nat := if m = 4 || m = 5 then 8 else 64

/-- Exponents of a row or a column: two blocks in B8, four in B4. -/
def expsOf (m : Nat) : Nat := if m = 3 then 4 else 2

/-- Bytes of a held block's elements. -/
def heldBytes (m : Nat) : Nat := if m = 5 then 8192 else 4096

/-- Signed bytes. -/
def signedBytes (l : List Byte) : List Int := l.map fun b => signed 8 b.toNat

/-- Signed nibbles, the low one of each byte first (R84). -/
def signedNibbles (l : List Byte) : List Int := l.flatMap fun b => [signed 4 b.toNat, signed 4 (b.toNat / 16)]

/-- Spins of 64 units, 1 meaning +1 (R83). -/
def spinsOf (l : List Byte) : List Int := tab 64 fun k => if bitAt (leNat l) k then 1 else -1

/-- A list cut into rows of 64. -/
def rows64 (n : Nat) (l : List Int) : List (List Int) := tab n fun k => (l.drop (64 * k)).take 64

/-- A held block's elements from its bytes, row by row of the reduction index (R161). -/
def heldData (m : Nat) (l : List Byte) : List (List Int) :=
  if m = 5 then rows64 64 ((chunks 2 l).map fun w => signed 16 (leNat w))
  else if m = 1 || m = 3 then rows64 128 (signedNibbles l)
  else rows64 64 (signedBytes l)

/-- A stream row's elements from its bytes. -/
def streamElems (m : Nat) (l : List Byte) : List Int :=
  if m = 4 || m = 5 then spinsOf l else if m = 1 || m = 3 then signedNibbles l else signedBytes l

/-! ## Accumulators (R92, R95, R96) -/

/-- A chunk sum joined with the stack's top while the low bit of its number is 1. -/
def pushStack : Nat → List Int → Int → List Int
  | _, [], v => [v]
  | t, top :: r, v => if t % 2 = 1 then pushStack (t / 2) r (top + v) else v :: top :: r

/-- One chunk sum pushed in an integer mode (R92). -/
def Acc.push (a : Acc) (v : Int) : Acc := { a with stack := pushStack a.count a.stack v, count := a.count + 1 }

/-- The final sum: the stack in an integer mode, acc in a block mode. -/
def Acc.final (block : Bool) (a : Acc) : Int := if block then a.acc else isum a.stack

/-- x / 2^k rounded to the nearest integer, ties to even. -/
def roundEven (x : Int) (k : Nat) : Int :=
  let q := x / 2 ^ k
  let r := x % 2 ^ k
  if 2 ^ k < 2 * r || (2 * r == 2 ^ k && q % 2 == 1) then q + 1 else q

/-- A block partial brought to units of 2^(Eref - 24) (R95). -/
def blockContrib (p e eref : Int) : Int :=
  let sh := e - eref + 24
  if 0 ≤ sh then p * 2 ^ sh.toNat else if 64 ≤ -sh then 0 else roundEven p (-sh).toNat

/-- One block partial added under R95 and R96. -/
def Acc.addBlock (a : Acc) (p ea eb eref : Int) : Acc :=
  if ea = -128 || eb = -128 || (p ≠ 0 && eref < ea + eb) then { a with inv := true }
  else { a with acc := a.acc + blockContrib p (ea + eb) eref }

/-- Products of stream elements with held rows, summed for each of the 64 columns. -/
def dotCols (elems : List Int) (held : List (List Int)) : List Int :=
  (elems.zip held).foldl (fun acc eh => List.zipWith (fun a h => a + eh.1 * h) acc eh.2) (List.replicate 64 0)

/-- A stream row pushed into a row of accumulators: chunk by chunk, or block by block (R87, R91). -/
def pushRow (m : Nat) (eref : Int) (h : Held) (row : StreamRow) (accs : List Acc) : List Acc :=
  if blockMode m then
    let added := (List.range (expsOf m)).foldl (fun accs q =>
      let ps := dotCols ((row.elems.drop (32 * q)).take 32) ((h.data.drop (32 * q)).take 32)
      (accs.zip (ps.zipIdx)).map fun x =>
        x.1.addBlock x.2.1 (row.exps.getD q 0) (h.exps.getD (expsOf m * x.2.2 + q) 0) eref) accs
    added.map fun a => { a with count := a.count + chunksOf m }
  else
    (List.range (chunksOf m)).foldl (fun accs q =>
      List.zipWith (fun a v => a.push v) accs (dotCols ((row.elems.drop (64 * q)).take 64) ((h.data.drop (64 * q)).take 64)))
      accs

/-- A row whose chunks do not correspond with the gang's: every accumulator takes a free sum (R595; log entry 15, DESIGN CHOICE). -/
def freeRow (m : Nat) (free : Nat) (accs : List Acc) : List Acc :=
  accs.zipIdx.map fun a =>
    if blockMode m then { a.1 with acc := Config.freeInt (free + a.2), count := a.1.count + chunksOf m }
    else { a.1 with stack := [Config.freeInt (free + a.2)], count := a.1.count + chunksOf m }

/-! ## The array of a tile -/

/-- A tile's array changed. -/
def State.modArray (s : State) (t : Nat) (f : ArrayU → ArrayU) : State := s.modTile t fun T => { T with au := f T.au }

/-- A held buffer. -/
def ArrayU.held (u : ArrayU) (second : Bool) : Held := if second then u.held1 else u.held0

/-- The largest number of chunks pushed to any one element of a tile's array (R107). -/
def ArrayU.maxChunks (u : ArrayU) : Nat := u.acc.foldl (fun m r => r.foldl (fun m a => max m a.count) m) 0

/-- Whether an array instruction of a phrase must wait for another phrase's output tile (R98). -/
def Ctx.arrayWaits (x : Ctx) : Bool := x.T.au.isOpen && !(x.T.au.owner == x.p)

/-- Whether the clause gangs its arrays. -/
def Ctx.ganged (x : Ctx) : Bool := decide (1 < x.cr.gangA * x.cr.gangB)

/-- The first member index of a member's gang. -/
def gangBase (cr : ClauseRec) (k : Nat) : Nat := k / (cr.gangA * cr.gangB) * (cr.gangA * cr.gangB)

/-- The tile of gang member (r, c) in the gang of member k (R50). -/
def gangTile (cr : ClauseRec) (k r c : Nat) : Nat := cr.members.getD (gangBase cr k + r * cr.gangB + c) 0

/-- The tiles of the gang but one. -/
def gangOthers (cr : ClauseRec) (k t : Nat) : List Nat :=
  ((List.range (cr.gangA * cr.gangB)).map fun i => cr.members.getD (gangBase cr k + i) 0).filter (· != t)

/-! ## AOPEN -/

/-- An output tile opened: it clears the last one's accumulators and SAT (R92, R105). -/
def ArrayU.openTile (u : ArrayU) (p m : Nat) (eref : Int) : ArrayU :=
  { u with isOpen := true, sat := false, mode := m, owner := p, eref := eref, gen := u.gen + 1,
           acc := List.replicate 64 (List.replicate 64 Acc.zero) }

/-- AOPEN's effect (R97, R98, R101, R595). A gang's other members ignore their own mode field, its unused codes
included. -/
def aopenRes (x : Ctx) : Res :=
  let m := x.f.imm.toNat % 8
  let e := (x.ph.rs x.f.a).toInt
  let first := !x.ganged || gangPos x.cr x.member == (0, 0)
  if first && decide (5 < m) then .illegal
  else if x.arrayWaits then .wait
  else if x.T.au.isOpen then .arrayFault 1
  else if first then
    if blockMode m && (e < -254 || 254 < e) then .arrayFault 6
    else
      let e := if blockMode m then e else 0
      let s := x.s.modArray x.t fun u => u.openTile x.p m e
      .done ((gangOthers x.cr x.member x.t).foldl
        (fun s t => if x.ganged then s.modArray t fun u => { u with opens := u.opens ++ [(m, e)] } else s) s) x.ph
  else
    match x.T.au.opens with
    | [] => .wait
    | (m, e) :: r => .done (x.s.modArray x.t fun u => { u.openTile x.p m e with opens := r }) x.ph

/-- AOPEN. -/
def execAopen (t p : Nat) (f : Fields) (s : State) : Host.Outcome State Fault Refusal :=
  issue 0x20 { a := true, imm := 0x7 } t p f aopenRes s

/-! ## ALDH -/

/-- The held block at two addresses, in a mode (R161). -/
def Ctx.heldAt (x : Ctx) (m a e : Nat) : Held :=
  { mode := some m, data := heldData m (x.load a (heldBytes m)),
    exps := if blockMode m then signedBytes (x.load e (64 * expsOf m)) else [] }

/-- ALDH's effect: the load into the idle buffer begins (R89). -/
def aldhRes (x : Ctx) : Res :=
  let m := x.f.imm.toNat % 8
  let a := (x.ph.rs x.f.a).toNat
  let e := (x.ph.rs x.f.b).toNat
  if 5 < m then .illegal
  else if x.arrayWaits || x.T.au.loading.isSome then .wait
  else if !x.sramOk a (heldBytes m) 64 then .fault 3 (x.ph.rs x.f.a) none
  else if blockMode m && !x.sramOk e (64 * expsOf m) 1 then .fault 3 (x.ph.rs x.f.b) none
  else
    let s := (x.s.modArray x.t fun u => { u with loading := some (x.heldAt m a e) }).tallySram x a (heldBytes m) false
    .done (if blockMode m then s.tallySram x e (64 * expsOf m) false else s) x.ph

/-- ALDH. -/
def execAldh (t p : Nat) (f : Fields) (s : State) : Host.Outcome State Fault Refusal :=
  issue 0x21 { a := true, b := true, imm := 0x7 } t p f aldhRes s

/-- The idle buffer filled. -/
def ArrayU.loaded (u : ArrayU) (h : Held) : ArrayU :=
  if u.active then { u with held0 := h, loading := none } else { u with held1 := h, loading := none }

/-- HELD_LOAD_COMPLETE (R89). -/
def execHeldLoadComplete (t : Nat) (s : State) : Host.Outcome State Fault Refusal :=
  match (s.tile t).au.loading with
  | some h => if s.tileUp t then .next ((s.modArray t fun u => u.loaded h).tally t 0x08 1) else .next s
  | none => .next s

/-! ## AMAC -/

/-- Chunks an element of row r has received over the members of its column block that work at the same output tile
(R93). -/
def Ctx.gangCount (x : Ctx) (r : Nat) : Nat :=
  let count := fun (u : ArrayU) => ((u.acc.getD r []).getD 0 Acc.zero).count
  if x.ganged then
    let c := (gangPos x.cr x.member).2
    (List.range x.cr.gangA).foldl (fun n i =>
      let u := (x.s.tile (gangTile x.cr x.member i c)).au
      if u.gen = x.T.au.gen then n + count u else n) 0
  else count x.T.au

/-- Row r of an AMAC's source: its address and its exponents' address; the stride is signed (R162). -/
def Ctx.amacRow (x : Ctx) (m r : Nat) : Nat × Nat :=
  let b := (x.ph.rs x.f.b).toInt
  ((x.ph.rs x.f.a + BitVec.ofInt 64 (r * b)).toNat,
   (x.ph.rs x.f.c + BitVec.ofInt 64 (r * (b / if m = 2 then 32 else 16))).toNat)

/-- The first address of an AMAC's source that R160 refuses: a row, or a row's exponents. -/
def Ctx.amacBad (x : Ctx) (m n : Nat) : Option Nat :=
  (List.range n).findSome? fun r =>
    let (a, e) := x.amacRow m r
    if !x.sramOk a (rowBytes m) (if m = 4 || m = 5 then 8 else 1) then some a
    else if blockMode m && !x.sramOk e (expsOf m) 1 then some e
    else none

/-- The rows of an AMAC read from SRAM. -/
def Ctx.amacRows (x : Ctx) (m n : Nat) : List StreamRow :=
  tab n fun r =>
    let (a, e) := x.amacRow m r
    { elems := streamElems m (x.load a (rowBytes m)),
      exps := if blockMode m then signedBytes (x.load e (expsOf m)) else [] }

/-- Rows pushed into output rows r0 onwards. -/
def ArrayU.pushRows (u : ArrayU) (r0 : Nat) (rows : List StreamRow) : ArrayU :=
  rows.zipIdx.foldl (fun u ri =>
    { u with acc := u.acc.modify (r0 + ri.2) fun accs => pushRow u.mode u.eref (u.held u.active) ri.1 accs }) u

/-- Rows that do not correspond with the gang's, pushed into output rows r0 onwards. -/
def ArrayU.pushFree (u : ArrayU) (r0 n free : Nat) : ArrayU :=
  (List.range n).foldl (fun u i =>
    { u with acc := u.acc.modify (r0 + i) fun accs => freeRow u.mode (free + 64 * i) accs }) u

/-- What pushing n rows counts: array steps, chunks, slot ticks whose class is not yet known (R538, R539). -/
def State.tallyPush (s : State) (t m n : Nat) : State :=
  let k := n * stepsOf m
  let s := ((s.tally t 0x04 k).tally t 0x05 (n * chunksOf m)).tally t 0x5F k
  s.modTile t fun T => { T with pendTicks := T.pendTicks + k }

/-- The buffers swapped where imm[0] asks for it. -/
def ArrayU.swapped (u : ArrayU) (swap : Bool) : ArrayU := if swap then { u with active := !u.active } else u

/-- AMAC once its checks have passed: the rows it reads itself, or the gang's multicast ones (R595). -/
def amacPush (x : Ctx) (m n r0 : Nat) (swap : Bool) : Res :=
  let (gr, gc) := gangPos x.cr x.member
  if n = 0 then .done (x.s.modArray x.t fun u => u.swapped swap) x.ph
  else if gc = 0 then
    if blockMode m && !((x.ph.rs x.f.b).toNat % (if m = 2 then 32 else 16) == 0) then .fault 3 (x.ph.rs x.f.a) none
    else
      match x.amacBad m n with
      | some a => .fault 3 (BitVec.ofNat 64 a) none
      | none =>
        let rows := x.amacRows m n
        let s := x.s.modArray x.t fun u => (u.swapped swap).pushRows r0 rows
        let s := (List.range (x.cr.gangB - 1)).foldl (fun s i =>
          s.modArray (gangTile x.cr x.member gr (i + 1)) fun u => { u with rows := u.rows ++ [(r0, rows)] }) s
        let s := (List.range n).foldl (fun s r =>
          let s := s.tallySram x (x.amacRow m r).1 (rowBytes m) false
          if blockMode m then s.tallySram x (x.amacRow m r).2 (expsOf m) false else s) s
        .done (s.tallyPush x.t m n) x.ph
  else
    match x.T.au.rows with
    | [] => .wait
    | (q0, rows) :: rest =>
      let s := if q0 = r0 && rows.length = n then
          x.s.modArray x.t fun u => { (u.swapped swap).pushRows r0 rows with rows := rest }
        else
          { x.s.modArray x.t fun u => { (u.swapped swap).pushFree r0 n x.s.free with rows := rest } with
            free := x.s.free + 64 * n }
      .done (s.tallyPush x.t m n) x.ph

/-- AMAC's effect (R89, R93, R106, R162). -/
def amacRes (x : Ctx) : Res :=
  let swap := x.f.imm.getLsbD 0
  let n := x.f.imm.toNat / 2 % 128
  let r0 := x.f.imm.toNat / 256 % 64
  let u := x.T.au
  if 64 < r0 + n then .illegal
  else if x.arrayWaits then .wait
  else if !u.isOpen then .arrayFault 2
  else if swap && u.loading.isSome then .wait
  else if (0 < n || swap) && !((u.held (u.active != swap)).mode == some u.mode) then .arrayFault 5
  else if (List.range n).any fun i => 65536 < x.gangCount (r0 + i) + chunksOf u.mode then .arrayFault 3
  else amacPush x u.mode n r0 swap

/-- AMAC. -/
def execAmac (t p : Nat) (f : Fields) (s : State) : Host.Outcome State Fault Refusal :=
  issue 0x22 { a := true, b := true, c := true, imm := 0x3FFF } t p f amacRes s

/-! ## ADRN (R102-R105) -/

/-- What a drain has met: a clamp, an invalid accumulator, an underflow. -/
def drainFlags (sat inv under : Bool) : BitVec 5 :=
  (if sat then vfSat else 0) ||| (if inv then vfInv else 0) ||| (if under then vfUnder else 0)

/-- One element drained in a drain mode (0 int32, 1 fp32, 2 bf16): its pattern and its flags; in the integer modes the sum
is clamped first (R94, R102). -/
def drainElem (drain m : Nat) (eref sh : Int) (v : Int) (inv : Bool) : Nat × BitVec 5 :=
  let fmt := if drain = 2 then Fmt.bf16 else Fmt.fp32
  if blockMode m then
    if inv then (fpNaN fmt, vfInv)
    else (Exact.ofInt v (eref - 24 + sh) false).toFp fmt none true
  else
    let c := clampS 32 v
    let fl := if c = v then 0 else vfSat
    if drain = 0 then (unsigned 32 c, fl)
    else
      let (b, fl') := (Exact.ofInt c sh false).toFp fmt none true
      (b, fl ||| fl')

/-- Bytes of a drained element. -/
def drainWidth (drain : Nat) : Nat := if drain = 2 then 2 else 4

/-- The final sums of an array with their INV bits. -/
def ArrayU.finals (u : ArrayU) : List (List (Int × Bool)) :=
  u.acc.map fun r => r.map fun a => (a.final (blockMode u.mode), a.inv)

/-- Two sets of final sums added exactly, element by element (R100). -/
def addFinals (x y : List (List (Int × Bool))) : List (List (Int × Bool)) :=
  List.zipWith (List.zipWith fun a b => (a.1 + b.1, a.2 || b.2)) x y

/-- The output tile closed after its drain. -/
def ArrayU.closed (u : ArrayU) (sat : Bool) : ArrayU := { u with isOpen := false, sat := sat }

/-- What a drain counts: its 74 steps, which starve the array behind, and the retired chunk ticks (R105, R538, R539). -/
def State.tallyDrain (s : State) (t : Nat) (sat : Bool) : State :=
  let s := (((s.tally t 0x06 1).tally t 0x04 74).tally t 0x03 74).tally t 0x5F 74
  let s := if sat then s.tally t 0x07 1 else s
  (s.tally t 0x00 (s.tile t).pendTicks).modTile t fun T => { T with pendTicks := 0 }

/-- The address of output row r of a drain. -/
def Ctx.drainRow (x : Ctx) (r : Nat) : Nat := (x.ph.rs x.f.a + BitVec.ofNat 64 r * x.ph.rs x.f.b).toNat

/-- The drain of a single array or of a gang's member (0, c), from its combined sums. -/
def drainOut (x : Ctx) (drain : Nat) (sums : List (List (Int × Bool))) : Res :=
  let w := drainWidth drain
  let sh := signed 8 (x.f.imm.toNat / 256)
  let u := x.T.au
  match (List.range 64).find? fun r => !x.sramOk (x.drainRow r) (64 * w) w with
  | some r => .fault 3 (BitVec.ofNat 64 (x.drainRow r)) none
  | none =>
    let out := sums.map fun r => r.map fun v => drainElem drain u.mode u.eref sh v.1 v.2
    let fl := out.foldl (fun fl r => r.foldl (fun fl e => fl ||| e.2) fl) (0 : BitVec 5)
    let s := out.zipIdx.foldl (fun s ri =>
      (s.store x.cr.members (x.drainRow ri.2) (ri.1.flatMap fun e => leBytes w e.1)).tallySram x
        (x.drainRow ri.2) (64 * w) true) x.s
    let inv := sums.map fun r => r.map (·.2)
    let s := s.modArray x.t fun u =>
      { u.closed (fl.getLsbD 3) with
        acc := List.zipWith (List.zipWith fun a i => { a with inv := i }) u.acc inv, sums := u.sums.drop 1 }
    .doneFl (s.tallyDrain x.t (fl.getLsbD 3)) x.ph fl

/-- ADRN's effect (R98, R102, R106, R595). A member of a gang row beyond 0 ignores its own drain mode, the unused code
included. -/
def adrnRes (x : Ctx) : Res :=
  let drain := x.f.imm.toNat % 4
  let u := x.T.au
  let gr := (gangPos x.cr x.member).1
  if gr = 0 && drain = 3 then .illegal
  else if x.arrayWaits then .wait
  else if !u.isOpen then .arrayFault 2
  else if gr ≠ 0 then
    .done ((x.s.modArray x.t fun u => { u.closed u.sat with sums := u.sums ++ [u.finals] }).tallyDrain x.t false) x.ph
  else if drain = 0 && (blockMode u.mode || !(x.f.imm.toNat / 256 % 256 == 0)) then .arrayFault 4
  else if 1 < x.cr.gangA then
    match u.sums with
    | [] => .wait
    | m :: _ => drainOut x drain (addFinals u.finals m)
  else drainOut x drain u.finals

/-- ADRN. -/
def execAdrn (t p : Nat) (f : Fields) (s : State) : Host.Outcome State Fault Refusal :=
  issue 0x23 { a := true, b := true, imm := 0xFF03 } t p f adrnRes s

/-! ## GANG_COMBINE (R100, R342) -/

/-- The tiles of the column block of a tile's gang but its row 0, where the tile is its root and the gang has rows. -/
def State.gangLeaves (s : State) (t : Nat) : List Nat :=
  match (s.tile t).clause.bind fun c => s.clauseRec c with
  | some cr =>
    let k := cr.members.idxOf t
    let (r, c) := gangPos cr k
    if r = 0 then (List.range (cr.gangA - 1)).map fun i => gangTile cr k (i + 1) c else []
  | none => []

/-- GANG_COMBINE: the final sums of the other members of a column block meet at member (0, c). -/
def execGangCombine (t : Nat) (s : State) : Host.Outcome State Fault Refusal :=
  let l := s.gangLeaves t
  match l.map fun m => (s.tile m).au.sums.head? with
  | [] => .next s
  | first :: rest =>
    match rest.foldl (fun a b => a.bind fun x => b.map fun y => addFinals x y) first with
    | some sums =>
      if s.tileUp t then
        let s := l.foldl (fun s m => s.modArray m fun u => { u with sums := u.sums.drop 1 }) s
        .next (s.modArray t fun u => { u with sums := u.sums ++ [sums] })
      else .next s
    | none => .next s

end Sys2Proof.Machine
end

