-- ==== Sys2Proof/Machine/OsierOps.lean ====
section
/-! DEFINITION. The osier array's operations: fields and drive, the response, bridges and spin events, anchors, β, banks,
phases and rounds (R182-R215, R236-R243). Fields, couplings and bridge sums are integers in units of 2^-8 field units,
which hold every bridge sum exactly (R182; log entry 26, DESIGN CHOICE). -/
namespace Sys2Proof.Machine

/-- The osier array of a tile changed. -/
def State.modOs (s : State) (t : Nat) (f : Osier → Osier) : State := s.modTile t fun T => { T with os := f T.os }

/-- A spin as ±1. -/
def spin (b : Bool) : Int := if b then 1 else -1

/-! ## Fields (R182-R185) -/

/-- The active bank. -/
def Osier.active (o : Osier) : Bank := if o.bank then o.bank1 else o.bank0

/-- The idle bank. -/
def Osier.idle (o : Osier) : Bank := if o.bank then o.bank0 else o.bank1

/-- The coupling sum of unit i against the states: code × 2^e for each nonzero code of its row. -/
def Bank.sum (b : Bank) (st : List Bool) (i : Nat) : Int :=
  isum ((b.codes.filter fun c => c.1 / 512 == i).map fun c =>
    let j := c.1 % 512
    signed 8 c.2.toNat * 2 ^ b.scale.getD (8 * (i / 64) + j / 64) 0 * spin (st.getD j false))

/-- The drive x + B + A before its clamp. -/
def Osier.rawDrive (o : Osier) (i : Nat) : Int := 2 * o.ext.getD i 0 + o.bsum.getD i 0 + 2 * o.asum.getD i 0

/-- The drive D of unit i, clamped to the range of i16 in units of 2^-7 (R183). -/
def Osier.drive (o : Osier) (i : Nat) : Int := max (-65536) (min 65534 (o.rawDrive i))

/-- Whether the clamp changes the drive of some unit (R184). -/
def Osier.clips (o : Osier) : Bool := (List.range 512).any fun i => o.drive i != o.rawDrive i

/-- OSR_STAT.xclip set when a drive is clamped. -/
def Osier.noteClip (o : Osier) : Osier := { o with xclip := o.xclip || o.clips }

/-- The local field h of unit i (R183). -/
def Osier.field (o : Osier) (i : Nat) : Int := o.active.sum o.st i + 2 * o.bias.getD i 0 + o.drive i

/-- What a unit latches at the realised β: the sign of h where |2βh| is above 16, else an outcome of its noise, which no
rule fixes (R185; log entry 10, DESIGN CHOICE). -/
def latch (beta : BitVec 32) (h : Int) (noise : Bool) : Bool :=
  match Fp.decode .fp32 beta.toNat with
  | .fin _ m e => if 2 ^ (11 - e).toNat < m * h.natAbs then decide (0 < h) else noise
  | _ => noise

/-! ## β (R187, R188, R237-R239) -/

/-- The β entry in effect (R188). -/
def State.betaEntry (s : State) (o : Osier) : BitVec 32 :=
  match s.weave.installed.bind fun w => w.tables.find? fun b => b.id == o.betaId with
  | some b => b.betas.getD (min o.index (b.betas.length - 1)) 0x3F800000
  | none => 0x3F800000

/-- The β that the gain realises, and whether it was clamped (R187). -/
def realise (b : BitVec 32) : BitVec 32 × Bool :=
  if b.toNat % 2 ^ 31 = 0 then (0, false)
  else if b < 0x3B800000 then (0x3B800000, true)
  else if 0x43800000 < b then (0x43800000, true)
  else (b, false)

/-- A round, an OSEL or a free-run starts at a β entry. -/
def Osier.takeBeta (o : Osier) (entry : BitVec 32) : Osier :=
  { o with beta := (realise entry).1, bclip := o.bclip || (realise entry).2 }

/-- n rounds counted toward the β index, which holds at the last entry (R188). -/
def Osier.stepBeta (o : Osier) (table : Option BetaTable) (n : Nat) : Osier :=
  let total := o.inEntry.toNat + n
  match table with
  | none => { o with inEntry := BitVec.ofNat 32 total }
  | some b =>
    let adv := min (total / b.roundsPer) (b.betas.length - 1 - o.index)
    { o with index := o.index + adv, inEntry := BitVec.ofNat 32 (total - adv * b.roundsPer) }

/-- The β table a tile's record names. -/
def State.betaTable (s : State) (o : Osier) : Option BetaTable :=
  s.weave.installed.bind fun w => w.tables.find? fun b => b.id == o.betaId

/-! ## Bridges and spin events (R199-R203) -/

/-- The bridges of the installed weave. -/
def State.bridges (s : State) : List Bridge := (s.weave.installed.map (·.bridges)).getD []

/-- A bridge's coupling. -/
def Bridge.weight (b : Bridge) : Int := b.code * 2 ^ b.scale

/-- Where a unit's bridges lead: tile, unit, coupling. -/
def bridgesOf (l : List Bridge) (t u : Nat) : List (Nat × Nat × Int) :=
  l.flatMap fun b =>
    (if b.ta = t ∧ b.ua = u then [(b.tb, b.ub, b.weight)] else []) ++
      (if b.tb = t ∧ b.ub = u then [(b.ta, b.ua, b.weight)] else [])

/-- The tiles joined to those of a list by a bridge, added to it. -/
def groupStep (l : List Bridge) (g : List Nat) : List Nat :=
  l.foldl (fun g b =>
    if g.contains b.ta && !g.contains b.tb then g ++ [b.tb]
    else if g.contains b.tb && !g.contains b.ta then g ++ [b.ta]
    else g) g

/-- The bridge group of a tile (R199): each pass over the bridges reaches at least one tile more, until none is left. -/
def State.bridgeGroup (s : State) (t : Nat) : List Nat :=
  (List.range s.nTiles).foldl (fun g _ => groupStep s.bridges g) [t]

/-- An event added to the bridge sums of its target (R200). -/
def State.applySpin (s : State) (e : SpinEv) : State :=
  let l := (bridgesOf s.bridges e.tile e.unit).filter fun x => x.1 == e.target
  (s.modOs e.target fun o =>
    { o with bsum := l.foldl (fun b x => b.modify x.2.1 (· + 2 * x.2.2 * spin e.state)) o.bsum }).tally e.target 0x40 1

/-- The events that have reached a tile applied. -/
def State.applySpins (s : State) (t : Nat) : State :=
  ((s.tile t).os.events.foldl State.applySpin s).modOs t fun o => { o with events := [] }

/-- A bridge unit's change of state sent to every tile that holds a bridge from it. -/
def State.sendSpin (s : State) (t : Nat) (phase before : BitVec 32) (u : Nat) (state : Bool) : State :=
  let dest := ((bridgesOf s.bridges t u).map (·.1)).eraseDups
  if dest.isEmpty then s
  else
    { s.tally t 0x3F 1 with
      spins := s.spins ++ dest.map fun g =>
        { word := spinWord state phase t u, before := before, target := g } }

/-- The bridge sums of a tile that match the states of its neighbours (R189, R219). -/
def State.bridgeSums (s : State) (t : Nat) : List Int :=
  s.bridges.foldl (fun b x =>
    let b := if x.tb = t then b.modify x.ub (· + x.weight * spin ((s.tile x.ta).os.st.getD x.ua false)) else b
    if x.ta = t then b.modify x.ua (· + x.weight * spin ((s.tile x.tb).os.st.getD x.ub false)) else b)
    (List.replicate 512 0)

/-- Whether phase count a lies at or before b, counts modulo 2^32 (R196). -/
def phaseLe (a b : BitVec 32) : Bool := decide (0 ≤ (b - a).toInt)

/-- Whether a run's next phase may begin as far as calibration goes: a round starts only while the array is neither stale
nor recalibrating (R214, R228). -/
def calLetsPhase (r : OsRun) (cal : BitVec 2) : Bool := r.kind == 3 || 0 < r.strand || cal == 0 || cal == 3

/-- Whether a tile runs its next phase or stands at that phase's stop, where it sends nothing more before it begins:
calibration, where it counts, keeps it from the stop (R197, R214). -/
def Tile.atStop (cal : Bool) (T : Tile) : Bool :=
  match T.os.run with
  | some r => r.kind != 2 && (r.inPhase || !cal || calLetsPhase r T.cal.cal)
  | none => false

/-- Whether a tile has begun phase q, or stands at its stop: what it sends before it begins that phase has been sent (R201;
log entry 93, DEDUCED). -/
def Tile.reached (cal : Bool) (q : BitVec 32) (T : Tile) : Bool :=
  phaseLe q T.os.phase && (q != T.os.phase || T.atStop cal)

/-- Whether every tile of a tile's group has reached the tile's next phase, or in loose rounds the phase L before it, so
that a tile that runs fewer phases leaves the others waiting (R201-R203). -/
def State.groupReached (s : State) (cal : Bool) (t stale : Nat) : Bool :=
  let q := (s.tile t).os.phase - BitVec.ofNat 32 stale
  (s.bridgeGroup t).all fun u => u == t || (s.tile u).reached cal q

/-- Whether the phase stop of a tile's next phase lets it begin: every tile of its group has reached that phase, and every
event they sent before it has arrived; in loose rounds, the phase L before (R201, R202). -/
def State.phaseStopOpen (s : State) (t : Nat) (stale : Nat) : Bool :=
  let q := (s.tile t).os.phase - BitVec.ofNat 32 stale
  let g := s.bridgeGroup t
  s.groupReached true t stale && !s.spins.any fun e => e.target == t && g.contains e.tile && phaseLe e.before q

/-! ## Anchor units (R208-R211) -/

/-- Anchor a's coefficient for column j, of 512 + count columns. -/
def Osier.coef (o : Osier) (a j : Nat) : Int := o.anchorCoef.getD (a * (512 + o.anchorCount) + j) 0

/-- Anchor a's field, exact, in units of 2^-(w/2) (R208). -/
def Osier.anchorField (o : Osier) (a : Nat) : Int :=
  o.anchorBias.getD a 0 + isum (tab 512 fun j => o.coef a j * spin (o.st.getD j false)) +
    isum (tab o.anchorCount fun b => o.coef a (512 + b) * spin (o.anchorSt.getD b false))

/-- P64 for an anchor's field at an unclamped β (R209). -/
def p64 (entry : BitVec 32) (h : Int) (width : Nat) : Nat :=
  match Fp.decode .fp32 entry.toNat with
  | .fin _ m e =>
    if m * h.natAbs = 0 then 2 ^ 63
    else
      let x := logisticExact (decide (h < 0)) (m * h.natAbs) (e + 1 - (width / 2 : Nat))
      min (2 ^ 64 - 1) ({ x with e := x.e + 64 }.round 0 none)
  | _ => 0

/-- The anchor sums of R211: each rounded to the nearest integer, ties to even, and clamped to i32. -/
def Osier.anchorSums (o : Osier) : List Int :=
  tab 512 fun i =>
    clampS 32 (roundEven (isum (tab o.anchorCount fun a => o.coef a i * spin (o.anchorSt.getD a false)))
      (o.anchorWidth / 2 - 7))

/-- The array with its anchor sums brought to its anchor states. -/
def Osier.sumAnchors (o : Osier) : Osier :=
  if o.hasAnchors then { o with asum := o.anchorSums } else { o with asum := List.replicate 512 0 }

/-- The anchors of a strand. -/
def Osier.anchorsIn (o : Osier) (k : Nat) : List Nat :=
  (List.range o.anchorCount).filter fun a => o.anchorStrands.getD a 0 == k

/-- One anchor's draw in a phase, and the state it latches (R209, R210). -/
def Osier.anchorLatch (o : Osier) (r : OsRun) (key : List Byte) (x : List Bool × Draws) (a : Nat) : List Bool × Draws :=
  let pos := (r.ctx.pos.getD 0 0).toNat + 64 * o.phase.toNat + a
  let (w, d) := drawBlock key r.ctx.lane r.ctx.stream.toNat pos r.thread 0 x.2
  let u := w.getD 1 0 * 2 ^ 32 + w.getD 0 0
  (x.1.set a (decide (u < p64 r.entry (o.anchorField a) o.anchorWidth)), d)

/-! ## Banks and waiting writes (R189-R193, R197) -/

/-- Whether a nonzero code couples two units of one strand (R190). -/
def Osier.couplesStrand (o : Osier) (b : Bank) : Bool :=
  b.codes.any fun c => o.strands.getD (c.1 / 512) 0 == o.strands.getD (c.1 % 512) 0

/-- OSR_QERR of each block: round(2^15 / M), 0 for a zero block (R193). -/
def qerrOf (codes : Mem) : List Nat :=
  let big := codes.foldl (fun l c =>
    l.modify (8 * (c.1 / 512 / 64) + c.1 % 512 / 64) (max (signed 8 c.2.toNat).natAbs)) (List.replicate 64 0)
  big.map fun m => if m = 0 then 0 else (65536 + m) / (2 * m)

/-- 4-bit values, the low one of each byte first. -/
def nibbles (l : List Byte) : List Nat := l.flatMap fun b => [b.toNat % 16, b.toNat / 16]

/-- A bank from 262,144 code bytes and 32 scale bytes (R54). -/
def bankOf (l : List Byte) : Bank :=
  let codes := Mem.cells 0 (l.take 262144)
  { codes := codes, scale := nibbles (slice l 262144 32), qerr := qerrOf codes }

/-- The idle bank replaced. -/
def Osier.setIdle (o : Osier) (b : Bank) : Osier := if o.bank then { o with bank0 := b } else { o with bank1 := b }

/-- The idle bank made active (R191, R192). -/
def State.swapBanks (s : State) (t : Nat) : State :=
  (s.modOs t fun o => { o with bank := !o.bank, swapPending := false }).tally t 0x47 1

/-- Values laid over a list of 512 from a first place. -/
def overlay (l : List Int) (first : Nat) (v : List Int) : List Int :=
  tab 512 fun i => if first ≤ i ∧ i < first + v.length then v.getD (i - first) 0 else l.getD i 0

/-- A write of external fields or biases takes effect. -/
def Osier.applyWrite (o : Osier) (w : OsWrite) : Osier :=
  if w.isBias then { o with bias := overlay o.bias w.first w.vals } else { o with ext := overlay o.ext w.first w.vals }

/-- The waiting writes take effect in issue order (R197). -/
def Osier.applyWrites (o : Osier) : Osier := ({ o.writes.foldl Osier.applyWrite o with writes := [] }).noteClip

/-- A write taken at the next phase boundary: at once outside a phase, but during a calibration only as the next phase or
free-run begins (R197, R206, R224). -/
def Osier.takeWrite (cal : Bool) (o : Osier) (w : OsWrite) : Osier :=
  if cal || (o.run.map (·.inPhase)).getD false then { o with writes := o.writes ++ [w] } else (o.applyWrite w).noteClip

/-! ## Phases, rounds and free-run (R194-R207) -/

/-- The interval timer kept as a tile's run ends (R229). -/
def State.noteIdle (s : State) (t : Nat) : State :=
  if (s.tile t).os.run.isSome then s.modTile t fun T => { T with cal := { T.cal with idleAt := s.timer } } else s

/-- A run ends; a swap that waits is made (R192). -/
def State.endRun (s : State) (t : Nat) : State :=
  let s := (s.noteIdle t).modOs t fun o => { o with run := none }
  if (s.tile t).os.swapPending then s.swapBanks t else s

/-- The boundary after a phase (R192, R195, R237): the next strand, or the end of the round and perhaps of the run. -/
def State.afterPhase (s : State) (t : Nat) (r : OsRun) : State :=
  let o := (s.tile t).os
  if r.kind = 3 then s.endRun t
  else if r.strand + 1 < o.strandCount then
    s.modOs t fun o => { o with run := some { r with inPhase := false, strand := r.strand + 1 } }
  else
    let table := s.betaTable o
    let s := (s.modOs t fun o =>
      let o := { o with rounds := o.rounds + 1, run := some { r with inPhase := false, strand := 0 } }
      if r.stepBeta then o.stepBeta table 1 else o).tally t 0x42 1
    if (s.tile t).os.rounds.toNat = r.rounds then s.endRun t
    else if (s.tile t).os.swapPending then s.swapBanks t
    else s

/-- The lane counter of the phrase that issued a run, after its draws; a tile without anchors draws none (R285, R289). -/
def Tile.laneDrawn (r : OsRun) (T : Tile) : Tile :=
  if r.ctx.lane && T.os.hasAnchors then { T with slots := T.slots.modify r.slot fun q => q.map fun ph => { ph with ctr := ph.ctr.set 0 r.ctr } }
  else T

/-- The key that a run's anchors draw under: that of the rounding context of the phrase that issued it (R210). -/
def State.anchorKey (s : State) (t : Nat) (r : OsRun) : Option (List Byte) :=
  (s.tile t).clause.bind fun c => r.ctx.slot.bind fun k => s.pgKey c k

/-- A run whose anchors find no key: the random fault of its instruction, and the run ends (R170, R456, R458; log entry
102, DEDUCED). -/
def State.anchorFault (s : State) (t : Nat) (r : OsRun) : State :=
  (((r.ctx.slot.map s.loseSlot).getD s).fault t r.slot r.pc 10 r.word 0).endRun t

/-- The end of a strand phase (R194, R196, R208-R211): settle, compare, latch, publish. -/
def State.phaseEnd (s : State) (t : Nat) (r : OsRun) : State :=
  let o := (s.tile t).os
  let st := tab 512 fun i =>
    if o.strands.getD i 0 = r.strand then latch o.beta (o.field i) (Config.freeBit (s.free + i)) else o.st.getD i false
  let flips := (List.range 512).filter fun i => st.getD i false != o.st.getD i false
  let anchors := o.anchorsIn r.strand
  let key := (s.anchorKey t r).getD []
  let (ast, d) := anchors.foldl (o.anchorLatch r key) (o.anchorSt, { ctr := [r.ctr], n := 0, wrapped := false })
  let r := { r with ctr := d.ctr.getD 0 0 }
  let aflips := anchors.filter fun a => ast.getD a false != o.anchorSt.getD a false
  let s := { s with free := s.free + 512 }
  let s := s.modTile t fun T =>
    Tile.laneDrawn r
      { T with os :=
          let o := { o with st := st, anchorSt := ast, phase := o.phase + 1 }
          (if aflips.isEmpty then o else o.sumAnchors).applyWrites }
  let s := (((s.tally t 0x41 1).tally t 0x43 flips.length).tally t 0x48 anchors.length).tally t 0x49 aflips.length
  let s := if anchors.isEmpty then s else (s.tookDraws t d false).tally t 0x51 d.n
  let s := flips.foldl (fun s i => s.sendSpin t o.phase (o.phase + 1) i (st.getD i false)) s
  s.afterPhase t r

/-- The start of a phase (R187, R194, R200, R214): events and waiting writes applied, and at a round's start its β taken. -/
def State.phaseBegin (s : State) (t : Nat) (r : OsRun) : State :=
  let s := (s.applySpins t).modOs t Osier.applyWrites
  let entry := s.betaEntry (s.tile t).os
  let first := r.strand == 0 || r.kind == 3
  let cal := (s.tile t).cal.cal
  let s := s.modOs t fun o =>
    let o := if first then o.takeBeta entry else o
    let o := if first && cal == 3 && !(r.kind == 3) then { o with unbounded := true } else o
    { o.noteClip with
      strand := r.strand, run := some { r with inPhase := true, entry := if first then entry else r.entry } }
  let s := if first && !(r.kind == 3) && (realise entry).2 then s.tally t 0x4B 1 else s
  let s := if (s.tile t).os.clips then s.tally t 0x4A 1 else s
  if (s.bridgeGroup t).length = 1 then s else s.tally t 0x3D 1

/-- The end of a free-run: its rounds count toward the index (R239). -/
def State.freeRunEnd (s : State) (t : Nat) (r : OsRun) : State :=
  if r.latched.all (r.rounds ≤ ·) then
    let table := s.betaTable (s.tile t).os
    (if r.stepBeta then s.modOs t fun o => o.stepBeta table r.rounds else s).endRun t
  else s

/-- Rounds that every unit has completed. -/
def OsRun.minLatched (r : OsRun) : Nat := min r.rounds (r.latched.foldl min r.rounds)

/-- One latch of a unit in free-run (R204, R207). -/
def State.freeLatch (s : State) (t unit : Nat) (together : List Nat) (r : OsRun) : State :=
  let o := (s.tile t).os
  let new := latch o.beta (o.field unit) (Config.freeBit s.free)
  let flip := new != o.st.getD unit false
  let tied := flip && together.any fun j => j < 512 && o.active.codes.get (512 * unit + j) != 0
  let r' := { r with latched := r.latched.modify unit (· + 1) }
  let s := { s with free := s.free + 1 }
  let s := s.modOs t fun o =>
    { o with
      st := o.st.set unit new, xclip := o.xclip || o.drive unit != o.rawDrive unit,
      frflip := if tied then satAdd 48 o.frflip 1 else o.frflip, rounds := BitVec.ofNat 32 r'.minLatched, run := some r' }
  let s := (((s.tally t 0x44 1).tally t 0x43 (b2n flip)).tally t 0x45 (b2n tied)).tally t 0x42
    (r'.minLatched - r.minLatched)
  let s := if flip then s.sendSpin t o.phase o.phase unit new else s
  s.freeRunEnd t r'

/-- What LAUNCH of the clause does to the array (R188, R196, R207): counts return to 0, and events still on their way
stand before its first phase. -/
def Osier.launchReset (o : Osier) : Osier := { o with phase := 0, inEntry := 0, index := 0, frflip := 0 }

end Sys2Proof.Machine
end

