-- ==== Sys2Proof/Machine/SeqOsier.lean ====
section
/-! DEFINITION. Osier and anchor instructions, phases, spin events and free-run latches (R166-R168, R190-R215, R243). -/
namespace Sys2Proof.Machine

/-! ## Runs (R166, R167, R195, R210, R213, R215) -/

/-- What calibration says of a run of a kind at issue (R213): it may run, it waits, or it faults. -/
def calGate (cal : BitVec 2) (free : Bool) (staleCal : Nat) : Option Bool :=
  if cal = 0 then some true
  else if cal = 1 then some false
  else if free && staleCal == 1 then some true
  else if cal = 2 then some false
  else none

/-- A run put in progress; a spot check is abandoned (R229). -/
def Ctx.startRun (x : Ctx) (kind rounds stale strand : Nat) (stepBeta : Bool) : State :=
  x.s.modTile x.t fun T =>
    { T with
      cal := { T.cal with spot := false }
      os := { T.os with
        kind := kind, rounds := if kind = 3 then T.os.rounds else 0,
        run := some { kind := kind, slot := x.p, rounds := rounds, stale := stale, stepBeta := stepBeta, strand := strand,
                      inPhase := false, entry := 0x3F800000, ctx := x.ph.rctx, thread := x.ph.base,
                      ctr := x.ph.ctr.getD 0 0, latched := List.replicate 512 0, pc := x.ph.pc,
                      word := wordHigh (if kind = 3 then 0x50 else 0x51) x.f } } }

/-- A run of a kind: the random fault of R210, the gate of R213, then its start. -/
def Ctx.runRes (x : Ctx) (free : Bool) (start : State) : Res :=
  if x.T.os.hasAnchors && x.rctxKey.isNone then x.noKey
  else
    match calGate x.T.cal.cal free x.s.policy.staleCal with
    | some true => .done start x.ph
    | some false => .wait
    | none => .bad 8

/-- OSEL's effect; it waits at issue for a run in progress (R197), and so faults only then. -/
def oselRes (x : Ctx) : Res :=
  let k := x.f.imm.toNat % 8
  if x.T.os.run.isSome then .wait
  else if !x.T.os.present || x.s.policy.det == 1 || x.T.os.strandCount ≤ k then .bad 8
  else x.runRes false (x.startRun 3 0 0 k false)

/-- OSEL. -/
def execOsel (t p : Nat) (f : Fields) (s : State) : Host.Outcome State Fault Refusal :=
  issue 0x50 { imm := 0x7 } t p f oselRes s

/-- A free-run's start: events that have arrived and waiting writes are applied, and the entry in effect is its β (R204, R239). -/
def State.freeRunStart (s : State) (t : Nat) : State :=
  let s := (s.applySpins t).modOs t Osier.applyWrites
  let entry := s.betaEntry (s.tile t).os
  s.modOs t fun o => (o.takeBeta entry).noteClip

/-- ORUN's effect; 0 rounds complete before every other check (R166); it waits at issue for a run in progress (R197). -/
def orunRes (x : Ctx) : Res :=
  let n := (x.ph.rs x.f.a).toNat % 2 ^ 32
  let kind := x.f.imm.toNat % 4
  let stale := x.f.imm.toNat / 16 % 16
  let step := x.f.imm.getLsbD 8
  if kind = 3 then .illegal
  else if n = 0 then .done x.s x.ph
  else if x.T.os.run.isSome then .wait
  else if !x.T.os.present || x.s.policy.det == 1 then .bad 8
  else if kind = 1 && (stale == 0 || x.s.policy.maxLoose < stale) then .bad 8
  else if kind = 2 && x.s.policy.freeRun == 0 then .bad 8
  else
    let s := x.startRun kind n (if kind = 1 then stale else 0) 0 step
    x.runRes (kind == 2) (if kind = 2 then s.freeRunStart x.t else s)

/-- ORUN. -/
def execOrun (t p : Nat) (f : Fields) (s : State) : Host.Outcome State Fault Refusal :=
  issue 0x51 { a := true, imm := 0x1F3 } t p f orunRes s

/-- PHASE_STOP_RELEASE: the next phase of the run in progress begins, once its phase stop is complete. -/
def execPhaseStopRelease (t : Nat) (s : State) : Host.Outcome State Fault Refusal :=
  match (s.tile t).os.run with
  | some r =>
    if s.tileUp t && !(r.kind == 2) && !r.inPhase && calLetsPhase r (s.tile t).cal.cal && s.phaseStopOpen t r.stale then
      .next (s.phaseBegin t r)
    else .next s
  | none => .next s

/-- STRAND_PHASE_COMPLETE: the phase in progress ends; anchors that find no key to draw under fault instead (R170, R210). -/
def execStrandPhaseComplete (t : Nat) (s : State) : Host.Outcome State Fault Refusal :=
  match (s.tile t).os.run with
  | some r =>
    if s.tileUp t && r.inPhase then
      if !((s.tile t).os.anchorsIn r.strand).isEmpty && (s.anchorKey t r).isNone then .next (s.anchorFault t r)
      else .next (s.phaseEnd t r)
    else .next s
  | none => .next s

/-- Whether a tile's array runs free. -/
def Tile.runsFree (T : Tile) : Bool := (T.os.run.map fun r => r.kind == 2).getD false

/-- SPIN_EVENT: event k of those on their way reaches its target, after those before it of the same sender, whose links keep
their order (R329); in free-run it is applied on arrival (R204). -/
def execSpinEvent (k : Nat) (s : State) : Host.Outcome State Fault Refusal :=
  match s.spins[k]? with
  | some e =>
    if s.tileUp e.target && !(s.spins.take k).any (fun d => d.tile == e.tile && d.target == e.target) then
      let s := { s with spins := s.spins.eraseIdx k }
      if (s.tile e.target).runsFree then .next (s.applySpin e)
      else .next (s.modOs e.target fun o => { o with events := o.events ++ [e] })
    else .next s
  | none => .next s

/-- FREE_RUN_LATCH: a unit of a free-run latches; `together` are the units that changed state during its settle. -/
def execFreeRunLatch (t unit : Nat) (together : List Nat) (s : State) : Host.Outcome State Fault Refusal :=
  match (s.tile t).os.run with
  | some r =>
    if s.tileUp t && r.kind == 2 && unit < 512 then .next (s.freeLatch t unit together r) else .next s
  | none => .next s

/-! ## Reads and writes of the array (R197, R243) -/

/-- Whether the phrase's own run is in progress (R243). -/
def Ctx.ownRun (x : Ctx) : Bool := (x.T.os.run.map fun r => r.slot == x.p).getD false

/-- States as bytes, bit i for unit i. -/
def packBits (n : Nat) (l : List Bool) : List Byte := leBytes n (ofBits (8 * n) fun i => l.getD i false)

/-- The memory fault of an access at s[a]. -/
def Ctx.badAddr (x : Ctx) : Res := .fault 3 (x.ph.rs x.f.a) none

/-- The address s[a]. -/
def Ctx.at_ (x : Ctx) : Nat := (x.ph.rs x.f.a).toNat

/-- Signed little-endian values of w bytes each. -/
def signedWords (w : Nat) (l : List Byte) : List Int := (chunks w l).map fun c => signed (8 * w) (leNat c)

/-- ORD's effect. -/
def ordRes (x : Ctx) : Res :=
  if x.ownRun then .wait
  else if !x.sramOk x.at_ 64 1 then x.badAddr
  else .done ((x.s.store x.cr.members x.at_ (packBits 64 x.T.os.st)).tallySram x x.at_ 64 true) x.ph

/-- ORD. -/
def execOrd (t p : Nat) (f : Fields) (s : State) : Host.Outcome State Fault Refusal :=
  issue 0x52 { a := true } t p f ordRes s

/-- OWF's effect; 0 fields complete before every other check (R166). -/
def owfRes (x : Ctx) : Res :=
  let n := x.f.imm.toNat % 1024
  let first := (x.ph.rs x.f.b).toNat
  if n = 0 then .done x.s x.ph
  else if x.ownRun then .wait
  else if !x.T.os.present || 512 < first + n then .bad 8
  else if !x.sramOk x.at_ (2 * n) 2 then x.badAddr
  else
    let w : OsWrite := { isBias := false, first := first, vals := signedWords 2 (x.load x.at_ (2 * n)) }
    .done ((x.s.tallySram x x.at_ (2 * n) false).modOs x.t (Osier.takeWrite (x.T.cal.step != 0) · w)) x.ph

/-- OWF. -/
def execOwf (t p : Nat) (f : Fields) (s : State) : Host.Outcome State Fault Refusal :=
  issue 0x53 { a := true, b := true, imm := 0x3FF } t p f owfRes s

/-- Bytes that OBANK reads. -/
def obankBytes : Nat := 262176

/-- OBANK's effect (R190): the bytes are taken at issue, and idle_bad clears (R191). -/
def obankRes (x : Ctx) : Res :=
  if x.T.os.loading.isSome || x.T.os.swapPending then .wait
  else if !x.sramOk x.at_ obankBytes 1 then x.badAddr
  else
    let l := x.load x.at_ obankBytes
    .done ((x.s.tallySram x x.at_ obankBytes false).modOs x.t fun o => { o with loading := some l, idleBad := false }) x.ph

/-- OBANK. -/
def execObank (t p : Nat) (f : Fields) (s : State) : Host.Outcome State Fault Refusal :=
  issue 0x54 { a := true } t p f obankRes s

/-- OBANK_LOAD_COMPLETE: the idle bank holds what was read; idle_bad and OSR_QERR follow (R190, R193). -/
def execObankLoadComplete (t : Nat) (s : State) : Host.Outcome State Fault Refusal :=
  match (s.tile t).os.loading with
  | some l =>
    if s.tileUp t then
      let b := bankOf l
      .next ((s.modOs t fun o => { o.setIdle b with loading := none, idleBad := o.couplesStrand b }).tally t 0x46 1)
    else .next s
  | none => .next s

/-- OSWAP's effect (R191, R192): during a calibration it waits as during a run (R224). -/
def oswapRes (x : Ctx) : Res :=
  let o := x.T.os
  if x.ownRun || o.loading.isSome || o.swapPending then .wait
  else if !o.present then .bad 8
  else if o.idleBad then .bad 8
  else if o.run.isSome || x.T.cal.step != 0 then .done (x.s.modOs x.t fun o => { o with swapPending := true }) x.ph
  else .done (x.s.swapBanks x.t) x.ph

/-- OSWAP. -/
def execOswap (t p : Nat) (f : Fields) (s : State) : Host.Outcome State Fault Refusal :=
  issue 0x55 {} t p f oswapRes s

/-- OBIAS's effect. -/
def obiasRes (x : Ctx) : Res :=
  if x.ownRun then .wait
  else if !x.T.os.present then .bad 8
  else if !x.sramOk x.at_ 1024 2 then x.badAddr
  else
    let v := signedWords 2 (x.load x.at_ 1024)
    if v.any fun b => b < -2048 || 2047 < b then .bad 8
    else
      .done ((x.s.tallySram x x.at_ 1024 false).modOs x.t
        (Osier.takeWrite (x.T.cal.step != 0) · { isBias := true, first := 0, vals := v })) x.ph

/-- OBIAS. -/
def execObias (t p : Nat) (f : Fields) (s : State) : Host.Outcome State Fault Refusal :=
  issue 0x56 { a := true } t p f obiasRes s

/-- Unit states written; a changed bridge unit sends a spin event (R200). -/
def State.writeStates (s : State) (t : Nat) (st : List Bool) : State :=
  let o := (s.tile t).os
  let flips := (List.range 512).filter fun i => st.getD i false != o.st.getD i false
  flips.foldl (fun s i => s.sendSpin t o.phase o.phase i (st.getD i false)) (s.modOs t fun o => { o with st := st })

/-- OSS's effect. -/
def ossRes (x : Ctx) : Res :=
  if x.T.os.run.isSome then .wait
  else if !x.sramOk x.at_ 64 1 then x.badAddr
  else
    let v := leNat (x.load x.at_ 64)
    .done ((x.s.tallySram x x.at_ 64 false).writeStates x.t (tab 512 (bitAt v))) x.ph

/-- OSS. -/
def execOss (t p : Nat) (f : Fields) (s : State) : Host.Outcome State Fault Refusal :=
  issue 0x57 { a := true } t p f ossRes s

/-! ## Anchor units (R168, R197) -/

/-- Values in an ANCHORS record after its strand field. -/
def anchorValues (n : Nat) : Nat := n + n * (512 + n)

/-- NLD's effect. -/
def nldRes (x : Ctx) : Res :=
  let o := x.T.os
  let w := o.anchorWidth / 8
  let n := w * anchorValues o.anchorCount
  if o.run.isSome then .wait
  else if !o.hasAnchors then .bad 9
  else if !x.sramOk x.at_ n w then x.badAddr
  else
    let v := signedWords w (x.load x.at_ n)
    .done ((x.s.tallySram x x.at_ n false).modOs x.t fun o =>
      { o with anchorBias := v.take o.anchorCount, anchorCoef := v.drop o.anchorCount }.sumAnchors.noteClip) x.ph

/-- NLD. -/
def execNld (t p : Nat) (f : Fields) (s : State) : Host.Outcome State Fault Refusal :=
  issue 0x60 { a := true } t p f nldRes s

/-- NRD's effect. -/
def nrdRes (x : Ctx) : Res :=
  if !x.T.os.hasAnchors then .bad 9
  else if !x.sramOk x.at_ 8 1 then x.badAddr
  else .done ((x.s.store x.cr.members x.at_ (packBits 8 x.T.os.anchorSt)).tallySram x x.at_ 8 true) x.ph

/-- NRD. -/
def execNrd (t p : Nat) (f : Fields) (s : State) : Host.Outcome State Fault Refusal :=
  issue 0x61 { a := true } t p f nrdRes s

/-- NWR's effect: bits at and above the anchor count are ignored. -/
def nwrRes (x : Ctx) : Res :=
  if x.T.os.run.isSome then .wait
  else if !x.T.os.hasAnchors then .bad 9
  else
    let v := (x.ph.rs x.f.a).toNat
    .done (x.s.modOs x.t fun o => { o with anchorSt := tab o.anchorCount (bitAt v) }.sumAnchors.noteClip) x.ph

/-- NWR. -/
def execNwr (t p : Nat) (f : Fields) (s : State) : Host.Outcome State Fault Refusal :=
  issue 0x62 { a := true } t p f nwrRes s

end Sys2Proof.Machine
end

