-- ==== Sys2Proof/Machine/CalOps.lean ====
section
/-! DEFINITION. The calibrator's shared operations (06): thresholds, triggers, the start, restart and judging of a
calibration, the setpoints that are commanded (R222-R232, R502). -/
namespace Sys2Proof.Machine

/-- A calibrator changed. -/
def State.modCal (s : State) (t : Nat) (f : Calib → Calib) : State := s.modTile t fun T => { T with cal := f T.cal }

/-- A threshold of CAL_CFG: 0 and values above 20 act as 20 (R235). -/
def calThreshold (v : BitVec 8) : Nat := if v.toNat = 0 || 20 < v.toNat then 20 else v.toNat

/-- How far two measured values lie apart. -/
def gap (a b : Int) : Nat := (a - b).natAbs

/-- Step 1 of a calibration begun: the state 0b01, CAL_REF recorded, a spot check abandoned (R222, R231). -/
def Calib.begin (now trigger : Nat) (k : Calib) : Calib :=
  { k with cal := 1, step := 1, stepAt := now, trigger := trigger, restarts := 0, known := true, ref := k.now, spot := false, startCmd := false,
           rail := none }

/-- A drift trigger fired (R225, R228, R231): a valid array becomes stale, a failed one calibrates; otherwise it is only
recorded. -/
def Calib.fire (cause : Nat) (k : Calib) : Calib :=
  { k with cal := if k.cal = 0 then 2 else if k.cal = 3 then 1 else k.cal, trigger := cause }

/-- A drift trigger of a tile. -/
def State.calFire (s : State) (t cause : Nat) : State := (s.modCal t (Calib.fire cause)).tally t 0x50 1

/-- Whether triggers are compared: CAL_REF holds the values of a calibration's step 1 (R225; log entry 46). -/
def Calib.compares (k : Calib) : Bool := k.known

/-- A calibration is over: a swap that waited for it is made, unless a run has still to reach a round's end (R192, R224; log
entry 95, DEDUCED). -/
def State.calEnd (s : State) (t : Nat) : State :=
  if (s.tile t).os.swapPending && (s.tile t).os.run.isNone then s.swapBanks t else s

/-- A failed attempt (R231, R232): the first consecutive one is retried at once, a later one leaves the array failed. -/
def State.calFail (s : State) (t : Nat) : State :=
  let s := (s.modCal t fun k => { k with fails := satAdd 8 k.fails 1, step := 0 }).tally t 0x4E 1
  if (s.tile t).cal.fails = 1 then (s.modCal t (Calib.begin s.timer 6)).tally t 0x4D 1
  else ((s.modCal t fun k => { k with cal := 3, rail := none }).calEnd t).raise irqCalFail

/-- Whether what is measured has moved by more than half its threshold since step 1 (R230). -/
def Calib.unsteady (k : Calib) : Bool :=
  k.step != 0 &&
    (decide (calThreshold k.dt < 2 * gap k.now.tj k.ref.tj) || decide (calThreshold k.dv < 2 * gap k.now.vc k.ref.vc) ||
      decide (20 < 2 * gap k.now.va k.ref.va))

/-- A calibration restarted where conditions have moved; the fourth restart fails it (R230). -/
def State.calSteady (s : State) (t : Nat) : State :=
  let k := (s.tile t).cal
  if !k.unsteady then s
  else
    let s := s.modCal t fun k => { k with restarts := k.restarts + 1, ref := k.now, step := 1, stepAt := s.timer }
    if k.restarts = 3 then (s.modCal t fun k => { k with failReason := 8, ufail := 0 }).calFail t else s

/-- A setpoint commanded for a tile's half (R225, R227): cause 2 where it lies too far from CAL_REF; a calibration that
waits for the rail waits for the latest setpoint. -/
def State.calSetpoint (s : State) (mv t : Nat) : State :=
  let k := (s.tile t).cal
  let wait := some (mv, s.timer + 500000)
  if k.compares && decide (calThreshold k.dv < gap mv k.ref.vc) then
    (s.calFire t 2).modCal t fun k => { k with rail := wait }
  else if k.rail.isSome then s.modCal t fun k => { k with rail := wait }
  else s

/-- The tiles of a half. -/
def State.halfTiles (s : State) (east : Bool) : List Nat := (List.range s.nTiles).filter fun t => s.tileEast t == east

/-- The rail registers of a half. -/
def State.rail (s : State) (east : Bool) : Rail := if east then s.pwr.railE else s.pwr.railW

/-- The rail registers of a half changed. -/
def State.modRail (s : State) (east : Bool) (f : Rail → Rail) : State :=
  if east then { s with pwr := { s.pwr with railE := f s.pwr.railE } }
  else { s with pwr := { s.pwr with railW := f s.pwr.railW } }

/-- A setpoint sent to the regulator of a half, and broadcast to its tiles (R225, R502, R503). -/
def State.setpoint (s : State) (east : Bool) (mv : Nat) : State :=
  let s := (s.modRail east fun r => { r with vcmd := mv }).emit (.pmbus (b2n east) mv)
  (s.halfTiles east).foldl (fun s t => s.calSetpoint mv t) s

/-- The setpoint a PWR_VSET field asks for: 600 to 850 mV (R503). -/
def vsetMv (v : BitVec 16) : Nat := max 600 (min 850 v.toNat)

/-- PWR_VSET of a half. -/
def State.vset (s : State) (east : Bool) : Nat := vsetMv (if east then s.pwr.vsetE else s.pwr.vsetW)

/-- The hottest tile of a half, in 0.25 °C. -/
def State.hottest (s : State) (east : Bool) : Int :=
  ((s.halfTiles east).map fun t => (s.tile t).cal.now.tj).foldl max (-32768)

/-! ## Measuring (R221, R222) -/

/-- Phases of a point of step 2, of a point of steps 3 and 5, and of step 5's point at 2h = 0. -/
def offsPhases : Nat := 16384
def pointPhases : Nat := 32768
def zeroPhases : Nat := 262144

/-- Step 2 of a unit: its offset trim bisected over ten points from a start, and whether points on both sides of 1/2 have
been met: a count above one half of the phases moves the trim down, any other up, by 256, 128 and so on to 1; the tenth
keeps the trim or takes the one below it (R222, R223; log entry 72, DESIGN CHOICE). -/
def bisect (start : Int) (counts : List Nat) : Int × Bool :=
  let high := fun (k : Nat) => decide (offsPhases < 2 * counts.getD k 0)
  let last := (List.range 9).foldl (fun (x : Int) k => if high k then x - 2 ^ (8 - k) else x + 2 ^ (8 - k)) start
  (if high 9 then last - 1 else last, (List.range 10).any high && !(List.range 10).all high)

/-- Φ(2h / 1.702) at the five points of step 5, in units of 2^-48: the standard normal distribution function at
∓3.5 / 1.702, ∓1.5 / 1.702 and 0. -/
def verifyTarget (k : Nat) : Nat := [5593410063034, 53219424531377, 228255552179279, 275881566647622, 2 ^ 47].getD k 0

/-- Phases of a point of step 5. -/
def verifyPhases (k : Nat) : Nat := if k = 4 then zeroPhases else pointPhases

/-- |P − Φ(2h / 1.702)| at a point of step 5, in units of 2^-48 (R223). -/
def verifyError (m : UnitMeas) (k : Nat) : Nat :=
  gap (m.verify.getD k 0 * (2 ^ 48 / verifyPhases k) : Nat) (verifyTarget k : Nat)

/-- A unit's perr: the largest error of its five points, in units of 2^-48. -/
def unitPerr (m : UnitMeas) : Nat := ((List.range 5).map (verifyError m)).foldl max 0

/-! ## Judging (R223) -/

/-- The reasons for which a unit misses its limits, its offset bisected from a start. -/
def unitMisses (start : Int) (m : UnitMeas) : List Nat :=
  let b := bisect start m.offs
  (if b.2 && decide (-512 ≤ b.1) && decide (b.1 ≤ 511) then [] else [1]) ++
    (if 32768 ≤ m.gain && m.gain ≤ 130416 then [] else [2]) ++
    (if -6553 ≤ m.jcorr && m.jcorr ≤ 6350 then [] else [3]) ++
    (if unitPerr m * 1000 ≤ 7 * 2 ^ 48 then [] else [4]) ++ (if m.acorr ≤ 983 then [] else [5]) ++
    (if m.ncorr ≤ 458 then [] else [6]) ++ (if m.jerr ≤ 655 then [] else [7])

/-- What unit i shows. -/
def measUnit (m : CalMeas) (i : Nat) : UnitMeas := m.units.getD i m.rest

/-- Whether the β stage's ratio of slopes is 16 ± 2 %. -/
def measBetaOk (m : CalMeas) : Bool := decide (1027605 ≤ m.betaRatio) && decide (m.betaRatio ≤ 1069547)

/-- The units that miss a limit; the β stage is every unit's. -/
def measBad (start : Nat → Int) (m : CalMeas) : BitVec 512 :=
  BitVec.ofNat 512 (ofBits 512 fun i => !measBetaOk m || !(unitMisses (start i) (measUnit m i)).isEmpty)

/-- The lowest reason for which the calibration fails; 0 where it passes. -/
def measReason (start : Nat → Int) (m : CalMeas) : Nat :=
  let l := (if measBetaOk m then [] else [2]) ++ (tab 512 fun i => unitMisses (start i) (measUnit m i)).flatten
  if l.isEmpty then 0 else l.foldl min 8

/-- The largest value of a figure over the units, in 16 bits. -/
def measWorst (m : CalMeas) (f : UnitMeas → Nat) : BitVec 16 :=
  BitVec.ofNat 16 (min 65535 ((tab 512 fun i => f (measUnit m i)).foldl max 0))

/-- A unit's trims as CAL_TRIM holds them. -/
def unitTrim (start : Int) (m : UnitMeas) : BitVec 32 :=
  BitVec.ofNat 32 (unsigned 10 (bisect start m.offs).1 * 2 ^ 22 + m.gainCode.toNat * 2 ^ 14 + m.jCode.toNat * 2 ^ 8)

/-- CAL_QUAL and CAL_UFAIL of an attempt; perr in whole units of 2^-16 (log entry 72). -/
def Calib.quality (start : Nat → Int) (m : CalMeas) (k : Calib) : Calib :=
  { k with perr := measWorst m fun u => unitPerr u / 2 ^ 32, acorr := measWorst m (·.acorr), ncorr := measWorst m (·.ncorr),
           jerr := measWorst m (·.jerr), ufail := measBad start m, failReason := measReason start m }

/-- A pass: the new trims are kept (R222, R231). -/
def Calib.pass (start : Nat → Int) (m : CalMeas) (k : Calib) : Calib :=
  { k with cal := 0, step := 0, seq := k.seq + 1, fails := 0, driftWorst := 0, driftCount := 0, rail := none,
           trim := some (tab 512 fun i => unitTrim (start i) (measUnit m i)) }

/-! ## Trims (R234, R235) -/

/-- CAL_TRIM of a tile's unit: what the last pass kept, else the base calibration table's; 0 without a table (log entry
72). -/
def State.trimWord (s : State) (t i : Nat) : BitVec 32 :=
  match (s.tile t).cal.trim with
  | some l => l.getD i 0
  | none =>
    let table := if s.tileEast t then s.fw.tableE else s.fw.tableW
    if table.isEmpty then 0 else Config.baseTrim table (s.physOf t) i

/-- Where step 2 starts a unit's bisection: the offset in effect, which is the base table's after a return of power
(R234). -/
def State.offsStart (s : State) (t i : Nat) : Int := signed 10 ((s.trimWord t i).toNat / 2 ^ 22)

/-! ## The steps in time (R222) -/

/-- The longest time of each step, in ns, at the guaranteed corner. -/
def calBound (step : Nat) : Nat := [0, 5000, 352000, 282000, 564000, 845000].getD step 0

/-- A calibrator as a period of the reference ends at a time: a step before the last goes on to the next at a moment that a
free bit picks, at its bound at the latest (R222; log entry 46, DESIGN CHOICE). -/
def Calib.tick (now : Nat) (goes : Bool) (k : Calib) : Calib :=
  if 1 ≤ k.step && k.step ≤ 5 && (goes || decide (k.stepAt + calBound k.step ≤ now)) then
    { k with step := k.step + 1, stepAt := now }
  else k

end Sys2Proof.Machine
end

