-- ==== Sys2Proof/Machine/LinkOps.lean ====
section
/-! DEFINITION. Messages between devices: which link one takes, and how one is queued (R373-R377, R495; log entry 14, DESIGN CHOICE). -/
namespace Sys2Proof.Machine

/-- This device's ID (R373); 0xFFFF with no LINKS section (R370). -/
def State.devId (s : State) : Nat := ((s.weave.installed.bind (·.links)).map (·.devId)).getD 0xFFFF

/-- A link's registers. -/
def State.link (s : State) (n : Nat) : Link := s.links.getD n Link.reset

/-- A link changed. -/
def State.modLink (s : State) (n : Nat) (f : Link → Link) : State := { s with links := s.links.modify n f }

/-- A set-up ended with a refuse reason; the link stays as it is (R361). -/
def Link.refuseSetup (reason : Nat) (k : Link) : Link := { k with setup := none, refuse := reason }

/-- Whether link n lies in the East half (R17). -/
def linkEast (n : Nat) : Bool := 16 ≤ n

/-- The links a message to device d may take: the first route entry that matches, without the East links while East sleeps
(R374, R495). -/
def State.routeLinks (s : State) (d : Nat) : List Nat :=
  match s.weave.installed.bind (·.links) with
  | none => []
  | some r =>
    match r.routes.find? fun e => decide (e.first ≤ d) && decide (d ≤ e.last) with
    | none => []
    | some e => (List.range 32).filter fun n => e.mask.getLsbD n && !(linkEast n && s.halfClosed true)

/-- The one link a message takes (R375); none where its destination is unreachable (R374). -/
def State.pickLink (s : State) (east : Bool) (srcNode d : Nat) : Option Nat :=
  let all := s.routeLinks d
  let near := all.filter fun n => linkEast n == east
  let l := if near.isEmpty then all else near
  l[(srcNode + d) % l.length]?

/-- The 32 bits of a wake pattern for a device (R384). -/
def wakeWord (d : BitVec 16) : BitVec 32 := (0xAA57 : BitVec 16) ++ d

/-- The node of HBM stack i (R48). -/
def stackNode (i : Nat) : Nat := 0x8000 + i

/-- The node of link n. -/
def linkNode (n : Nat) : Nat := 0x8010 + n

/-- The bytes of a message as it crosses a link, in whole 4-byte units (R353, R373; log entry 14, DESIGN CHOICE): its number does not
enter them. -/
def wireBytes (m : Msg) : List Byte :=
  let w := Config.msgWire { m with id := 0, wire := [], buf := none }
  fitTo (max 4 (roundUp w.length 4)) w

/-- Whether a message asks for an access to HBM. -/
def asksAccess : LinkBody → Bool
  | .dmaWrite .. => true
  | .dmaRead .. => true
  | .atomic .. => true
  | _ => false

/-- The clause that a request names. -/
def reqClause : LinkBody → Option Nat
  | .dmaWrite c _ _ _ => some c
  | .dmaRead c _ _ _ => some c
  | .atomic c _ _ _ => some c
  | _ => none

/-- A message sent by the clause of a REPLAY: it is not transmitted; its bytes are kept for the comparison, and a request
waits for the answer that the transcript holds (R447). -/
def Replay.capture (n : Nat) (m : Msg) (r : Replay) : Replay :=
  { r with sent := r.sent ++ [(n, wireBytes m)]
           asked := if !m.resp && asksAccess m.body then r.asked ++ [(m.id, m.dst, m.dstNode)] else r.asked }

/-- A message of a clause queued on link n; during a REPLAY of that clause it is kept instead (R447). -/
def State.queueMsg (s : State) (n : Nat) (ofReplay : Bool) (m : Msg) : State :=
  match s.replay with
  | some r =>
    if ofReplay then { s with replay := some (r.capture n m) }
    else s.modLink n fun k => { k with txq := k.txq ++ [{ m with wire := wireBytes m }] }
  | none => s.modLink n fun k => { k with txq := k.txq ++ [{ m with wire := wireBytes m }] }

/-- A frame buffer drained once no message holds it: its credit is owed (R366). -/
def Link.drained (b : Option (BitVec 16 × Nat)) (k : Link) : Link :=
  match b with
  | none => k
  | some (_, c) =>
    if (k.rxq ++ k.transit ++ k.waiting).any fun m => m.buf == b then k
    else { k with owed := k.owed.modify c (· + 1) }

/-- Whether a clause is the one a REPLAY runs. -/
def State.replaying (s : State) (c : Option Nat) : Bool :=
  match s.replay, c with
  | some r, some c => r.clause == c
  | _, _ => false

/-- A message queued on the link its route takes; none where it is unreachable. -/
def State.sendMsg (s : State) (east ofReplay : Bool) (m : Msg) : Option State :=
  (s.pickLink east m.srcNode m.dst).map fun n => s.queueMsg n ofReplay m

/-- A request of a tile to HBM of another device (R378): its number and the state, or none where unreachable. -/
def State.request (s : State) (t : Nat) (dev hbm : Nat) (body : LinkBody) : Option (Nat × State) :=
  let m : Msg :=
    { id := s.nextReq, vc := 0, resp := false, dst := dev, dstNode := stackNode (hbm / stackSize), src := s.devId,
      srcNode := t, body := body, wire := [], buf := none }
  (s.sendMsg (s.tileEast t) (s.replaying (s.tile t).clause) m).map fun s' => (s.nextReq, { s' with nextReq := s.nextReq + 1 })

/-- The response to a request that has come back. -/
def State.response (s : State) (id : Nat) : Option LinkBody := (s.resps.find? fun m => m.id == id).map (·.body)

/-- Responses taken. -/
def State.dropResps (s : State) (ids : List Nat) : State := { s with resps := s.resps.filter fun m => !ids.contains m.id }

end Sys2Proof.Machine
end

