-- ==== Sys2Proof/Machine/Record.lean ====
section
/-! DEFINITION. The transcript recorder (13 R439-R444): the ring and its header in HBM, its entries, what is recorded. -/
namespace Sys2Proof.Machine

/-- A write of the device's own to local HBM; nothing is written in a sleeping half (R395). -/
def State.ownWrite (s : State) (a : Nat) (l : List Byte) : State :=
  if l.isEmpty then s else if s.hbmAsleep a l.length then s.noteAsleep else (s.hbmWrite a l).1

/-- The transcript ring (R59). -/
def State.ring (s : State) : Option Region := s.regions.find? fun r => r.kind == 3

/-- Bytes of the ring that hold entries (R439). -/
def Region.ringBytes (r : Region) : Nat := r.len - 0x40

/-- The header's first 16 bytes and its dropped count (R439). -/
def State.ringHeader (s : State) (r : Region) : State :=
  let flags := b2n s.trans.recording + 2 * b2n s.trans.outbound + 4 * b2n s.trans.gapSeen
  let s := s.ownWrite r.base ([0x4E, 0x54, 0x52, 0x31, 1, 0] ++ leBytes 2 flags ++ leBytes 8 s.trans.written)
  s.ownWrite (r.base + 0x18) (leBytes 8 s.trans.dropped)

/-- The host's consumed count, as the header holds it. -/
def State.ringConsumed (s : State) (r : Region) : Nat := leNat (s.hbmBytes (r.base + 0x10) 8)

/-- An entry: its 32-byte header, its payload, the padding (R440). -/
def trEntry (type link vc seq ref timer : Nat) (payload : List Byte) : List Byte :=
  [BitVec.ofNat 8 type, BitVec.ofNat 8 link, BitVec.ofNat 8 vc, 0] ++ leBytes 4 payload.length ++ leBytes 8 seq ++
    leBytes 8 ref ++ leBytes 8 timer ++ payload ++ zeros (roundUp payload.length 32 - payload.length)

/-- Bytes of the pad entry that an entry of n bytes needs before it at stream byte w (R440). -/
def ringPad (cap w n : Nat) : Nat := if cap < w % cap + n then cap - w % cap else 0

/-- Whether an entry of n bytes, with any pad, fits before the bytes the host has not consumed (R442). -/
def State.ringFits (s : State) (r : Region) (n : Nat) : Bool :=
  let cap := r.ringBytes
  decide (n ≤ cap) && decide (s.trans.written + ringPad cap s.trans.written n + n ≤ s.ringConsumed r + cap)

/-- An entry that fits is written, then write advances past it (R440). -/
def State.ringPut (s : State) (r : Region) (e : List Byte) : State :=
  let cap := r.ringBytes
  let w := s.trans.written
  let pad := ringPad cap w e.length
  let s := if pad = 0 then s
    else s.ownWrite (r.base + 0x40 + w % cap) (trEntry 0 0xFF 0 0 0 s.timer (zeros (pad - 32)))
  let s := s.ownWrite (r.base + 0x40 + (w + pad) % cap) e
  { s with trans := { s.trans with written := w + pad + e.length } }.ringHeader r

/-- The gap entry, once room has returned (R442). -/
def State.ringGap (s : State) (r : Region) : State :=
  if s.trans.gapOwed = 0 || !s.ringFits r 32 then s
  else
    let e := trEntry 7 0xFF 0 s.trans.gapOwed 0 s.timer []
    { s with trans := { s.trans with gapOwed := 0, gapSeen := true } }.ringPut r e

/-- An entry recorded, or dropped and counted (R442); the host sequence number counts the host entries recorded (R440; log
entry 99, DEDUCED). -/
def State.ringEntry (s : State) (r : Region) (host : Bool) (e : List Byte) : State :=
  let s := s.ringGap r
  if s.trans.gapOwed = 0 && s.ringFits r e.length then
    { s with trans := { s.trans with hostSeq := s.trans.hostSeq + b2n host } }.ringPut r e
  else
    { s with trans := { s.trans with dropped := s.trans.dropped + 1, gapOwed := s.trans.gapOwed + 1 } }.ringHeader r

/-- An entry of the ring of the installed weave. -/
def State.record (s : State) (type link vc seq ref : Nat) (payload : List Byte) : State :=
  match s.ring with
  | some r => s.ringEntry r (type == 3 || type == 4) (trEntry type link vc seq ref s.timer payload)
  | none => s

/-- Whether inputs are recorded now: recording, and no REPLAY at work (R446). -/
def State.recordingNow (s : State) : Bool := s.trans.recording && s.replay.isNone

/-- A host entry, types 3 and 4, with the next host sequence number. -/
def State.recordHost (s : State) (type ref : Nat) (payload : List Byte) : State :=
  s.record type 0xFF 0 (s.trans.hostSeq + 1) ref payload

/-- The merged BAR2 writes recorded as one entry (R441). -/
def State.recordFlush (s : State) : State :=
  match s.trans.merge with
  | some (a, l) => { s with trans := { s.trans with merge := none } }.recordHost 3 a l
  | none => s

/-- Whether bytes touch a region whose host writes are recorded (R441). -/
def State.recorded (s : State) (a n : Nat) : Bool :=
  s.regions.any fun r =>
    r.kind != 3 && r.kind != 4 && decide (a < r.base + r.len) && decide (r.base < a + n)

/-- A BAR2 write recorded: contiguous ones merge up to 4 KiB (R441). -/
def State.recordBar2 (s : State) (a : Nat) (l : List Byte) : State :=
  if !s.recordingNow || !s.recorded a l.length then s
  else
    match s.trans.merge with
    | some (b, m) =>
      if b + m.length = a && m.length + l.length ≤ 4096 then
        { s with trans := { s.trans with merge := some (b, m ++ l) } }
      else
        let s := s.recordFlush
        { s with trans := { s.trans with merge := some (a, l) } }
    | none => { s with trans := { s.trans with merge := some (a, l) } }

/-- The data of a COPY from the host, or of an ENTROPY_READ, recorded in entries of at most 1 MiB (R441). -/
def State.recordWrite (s : State) (a : Nat) (l : List Byte) : State :=
  if !s.recordingNow || !s.recorded a l.length then s
  else
    let n := 0x100000
    (List.range ((l.length + n - 1) / n)).foldl (fun s i => s.recordHost 3 (a + n * i) (slice l (n * i) n)) s.recordFlush

/-- A LAUNCH recorded at its start (R441). -/
def State.recordLaunch (s : State) (c : Nat) (args : List Byte) : State :=
  if s.recordingNow then s.recordFlush.recordHost 4 c args else s

/-- A message on VC0 or VC2 recorded as it is delivered here, or as it is sent (R441). -/
def State.recordMsg (s : State) (inbound : Bool) (n : Nat) (vc : BitVec 2) (seq : Nat) (wire : List Byte) : State :=
  if s.recordingNow && (inbound || s.trans.outbound) && (vc == 0 || vc == 2) then
    let s := s.recordFlush
    s.record (if inbound then 5 else 6) n vc.toNat seq s.trans.hostSeq wire
  else s

/-- Recording starts: the header's counts cleared, the start entry with the installed digest written (R443). -/
def State.recordStart (s : State) (r : Region) (outbound : Bool) : State :=
  let s := { s with trans :=
    { Transcript.reset with recording := true, outbound := outbound } }
  let s := (s.ownWrite r.base (zeros 0x40)).ringHeader r
  s.record 1 0xFF 0 0 0 s.weave.digest

/-- Recording stops with a stop entry (R443, R444). -/
def State.recordStop (s : State) : State :=
  if s.trans.recording then
    let s := (s.recordFlush).record 2 0xFF 0 0 0 []
    let s := { s with trans := { s.trans with recording := false } }
    match s.ring with
    | some r => s.ringHeader r
    | none => s
  else s

/-- Room that the host has returned: a gap that is owed is written (R442). -/
def State.recordRoom (s : State) : State :=
  match s.ring with
  | some r => if s.recordingNow then s.ringGap r else s
  | none => s

end Sys2Proof.Machine
end

