-- ==== Sys2Proof/Machine/SeqMemory.lean ====
section
/-! DEFINITION. Memory instructions, DMA, atomics, and what the HBM controllers do (04, 10, 11, 12). -/
namespace Sys2Proof.Machine

/-! ## Loads and stores of clause SRAM (R146, R160, R594) -/

/-- Bits of a lane of VLD, VST, VLDX and VSTX, by imm[29:28]. -/
def laneBits (imm : BitVec 32) : Nat :=
  match imm.toNat / 2 ^ 28 % 4 with
  | 0 => 32
  | 1 => 16
  | 2 => 8
  | _ => 4

/-- Bytes that an element of so many bits is aligned to (R160). -/
def elemBytes (bits : Nat) : Nat := if bits = 4 then 1 else bits / 8

/-- Where a lane's element lies: its byte address and its nibble. -/
structure LaneAt where
  lane : Nat
  addr : Nat
  nib : Nat
  deriving DecidableEq, Repr

/-- The active lanes of a phrase, ascending. -/
def Ctx.lanes (x : Ctx) : List Nat := (List.range 64).filter fun l => (x.ph.active x.f).getLsbD l

/-- The elements of VLD and VST: the row at s[a] + offset (R594). -/
def Ctx.rowLanes (x : Ctx) (bits : Nat) : List LaneAt :=
  let base := (x.ph.rs x.f.a + (x.f.imm.extractLsb' 0 28).signExtend 64).toNat
  x.lanes.map fun l => { lane := l, addr := base + l * bits / 8, nib := if bits = 4 then l % 2 else 0 }

/-- The elements of VLDX and VSTX (R594). -/
def Ctx.gatherLanes (x : Ctx) (bits : Nat) : List LaneAt :=
  x.lanes.map fun l =>
    let k := (x.ph.lane x.f.b.toNat l).toNat
    let o := if bits = 4 then k / 2 else k
    { lane := l, addr := (x.ph.rs x.f.a + BitVec.ofNat 64 o).toNat, nib := if bits = 4 then k % 2 else 0 }

/-- The first lane whose access is misaligned or beyond the clause's SRAM (R160). -/
def Ctx.badLane (x : Ctx) (bits : Nat) (l : List LaneAt) : Option LaneAt :=
  l.find? fun e => !x.sramOk e.addr (elemBytes bits) (elemBytes bits)

/-- What a lane loads: 16-bit lanes zero-extended, 8-bit and 4-bit lanes sign-extended. -/
def Ctx.loadLane (x : Ctx) (bits : Nat) (e : LaneAt) : BitVec 32 :=
  let v := leNat (x.load e.addr (elemBytes bits))
  if bits = 4 then BitVec.ofInt 32 (signed 4 (v / 16 ^ e.nib))
  else if bits = 8 then BitVec.ofInt 32 (signed 8 v)
  else BitVec.ofNat 32 v

/-- The lanes of a register loaded. -/
def Ctx.loadLanes (x : Ctx) (bits : Nat) (l : List LaneAt) : List (BitVec 32) :=
  mergeLanes (x.ph.active x.f) (x.ph.rv x.f.d.toNat) fun i =>
    match l.find? fun e => e.lane == i with
    | some e => x.loadLane bits e
    | none => 0

/-- One lane stored. -/
def State.storeLane (s : State) (members : List Nat) (bits : Nat) (e : LaneAt) (v : BitVec 32) : State :=
  if bits = 4 then
    let b := leNat (s.sramRead members e.addr 1)
    s.sramWrite members e.addr (leBytes 1 (b - b / 16 ^ e.nib % 16 * 16 ^ e.nib + v.toNat % 16 * 16 ^ e.nib))
  else s.sramWrite members e.addr (leBytes (bits / 8) v.toNat)

/-- The lanes stored in ascending order, so that the higher lane wins (R147). -/
def State.storeLanes (s : State) (x : Ctx) (bits : Nat) (l : List LaneAt) : State :=
  l.foldl (fun s e =>
    (s.storeLane x.cr.members bits e (x.ph.lane x.f.d.toNat e.lane)).stored x.cr.members e.addr (elemBytes bits)) s

/-- What a row access counts: one access from its first to its last active lane. -/
def State.tallyRow (s : State) (x : Ctx) (bits : Nat) (l : List LaneAt) (write : Bool) : State :=
  match l.head?, l.getLast? with
  | some a, some b => s.tallySram x a.addr (b.addr + elemBytes bits - a.addr) write
  | _, _ => s

/-- What a gather or a scatter counts: one access for each lane. -/
def State.tallyLanes (s : State) (x : Ctx) (bits : Nat) (l : List LaneAt) (write : Bool) : State :=
  l.foldl (fun s e => s.tallySram x e.addr (elemBytes bits) write) s

/-- A load or store over lanes: the faults of R160, checked for every active lane before any effect (R174). -/
def laneRes (x : Ctx) (bits : Nat) (l : List LaneAt) (ok : Res) : Res :=
  match x.badLane bits l with
  | some e => .fault 3 (BitVec.ofNat 64 e.addr) none
  | none => ok

/-- VLD. -/
def execVld (t p : Nat) (f : Fields) (s : State) : Host.Outcome State Fault Refusal :=
  issue 0x10 { d := true, a := true, imm := 0x3FFFFFFF, lanewise := true } t p f (fun x =>
    let n := laneBits f.imm
    let l := x.rowLanes n
    laneRes x n l (.done (x.s.tallyRow x n l false) (x.ph.wv f.d.toNat (x.loadLanes n l)))) s

/-- VST. -/
def execVst (t p : Nat) (f : Fields) (s : State) : Host.Outcome State Fault Refusal :=
  issue 0x11 { d := true, a := true, imm := 0x3FFFFFFF, lanewise := true } t p f (fun x =>
    let n := laneBits f.imm
    let l := x.rowLanes n
    laneRes x n l (.done ((x.s.storeLanes x n l).tallyRow x n l true) x.ph)) s

/-- VLDX. -/
def execVldx (t p : Nat) (f : Fields) (s : State) : Host.Outcome State Fault Refusal :=
  issue 0x12 { d := true, a := true, b := true, imm := 0x30000000, lanewise := true } t p f (fun x =>
    let n := laneBits f.imm
    let l := x.gatherLanes n
    laneRes x n l (.done (x.s.tallyLanes x n l false) (x.ph.wv f.d.toNat (x.loadLanes n l)))) s

/-- VSTX. -/
def execVstx (t p : Nat) (f : Fields) (s : State) : Host.Outcome State Fault Refusal :=
  issue 0x13 { d := true, a := true, b := true, imm := 0x30000000, lanewise := true } t p f (fun x =>
    let n := laneBits f.imm
    let l := x.gatherLanes n
    laneRes x n l (.done ((x.s.storeLanes x n l).tallyLanes x n l true) x.ph)) s

/-- The address of SLD, SST and SLDW: s[a] + imm, sign-extended (R594). -/
def Ctx.scalarAddr (x : Ctx) : Nat := (x.ph.rs x.f.a + x.f.imm.signExtend 64).toNat

/-- A scalar access of n bytes: the fault of R160, or its effect. -/
def scalarRes (x : Ctx) (n : Nat) (write : Bool) (s : State) (ph : Phrase) : Res :=
  if x.sramOk x.scalarAddr n n then .done (s.tallySram x x.scalarAddr n write) ph
  else .fault 3 (BitVec.ofNat 64 x.scalarAddr) none

/-- SLD. -/
def execSld (t p : Nat) (f : Fields) (s : State) : Host.Outcome State Fault Refusal :=
  issue 0x14 { d := true, a := true, imm := BitVec.allOnes 32 } t p f (fun x =>
    scalarRes x 8 false x.s (x.ph.ws f.d (BitVec.ofNat 64 (leNat (x.load x.scalarAddr 8))))) s

/-- SST. -/
def execSst (t p : Nat) (f : Fields) (s : State) : Host.Outcome State Fault Refusal :=
  issue 0x15 { d := true, a := true, imm := BitVec.allOnes 32 } t p f (fun x =>
    scalarRes x 8 true (x.s.store x.cr.members x.scalarAddr (leBytes 8 (x.ph.rs f.d).toNat)) x.ph) s

/-- SLDW. -/
def execSldw (t p : Nat) (f : Fields) (s : State) : Host.Outcome State Fault Refusal :=
  issue 0x16 { d := true, a := true, imm := BitVec.allOnes 32 } t p f (fun x =>
    scalarRes x 4 false x.s (x.ph.ws f.d (BitVec.ofNat 64 (leNat (x.load x.scalarAddr 4))))) s

/-- PREF: a hint, without a fault or an effect on bits; it counts as an issued prefetch (R144, R540). -/
def execPref (t p : Nat) (f : Fields) (s : State) : Host.Outcome State Fault Refusal :=
  issue 0x19 { a := true, imm := 0xFFFF } t p f (fun x => .done (x.s.tally x.t 0x2E 1) x.ph) s

/-! ## DMA (R148-R151, R378, R379) -/

/-- The region that grants a clause all n bytes at a, by its kind: a plain or an atomic one, a read-only one for reads
(R150). -/
def State.dmaRegion (s : State) (c a n : Nat) (write : Bool) : Bool :=
  s.regions.any fun r => r.grants c && r.holds a n && decide (r.kind < 3) && !(write && r.kind == 1)

/-- The row addresses of a descriptor. -/
def dmaRow (base stride r : Nat) : Nat := base + r * stride

/-- A DMA descriptor's fields (R148). -/
structure DmaDesc where
  dir : Nat
  flags : Nat
  tree : Nat
  rows : Nat
  addr : BitVec 64
  sram : Nat
  rowBytes : Nat
  hbmStride : Nat
  sramStride : Nat
  deriving DecidableEq, Repr

/-- A descriptor read from its 32 bytes. -/
def parseDma (l : List Byte) : DmaDesc :=
  { dir := byteAt l 0, flags := byteAt l 1, tree := leAt l 2 2, rows := leAt l 4 4, addr := BitVec.ofNat 64 (leAt l 8 8),
    sram := leAt l 0x10 4, rowBytes := leAt l 0x14 4, hbmStride := leAt l 0x18 4, sramStride := leAt l 0x1C 4 }

/-- The tile nodes of a bulk multicast tree of a clause (R326). -/
def State.mcastTiles (s : State) (c tree : Nat) : Option (List Nat) :=
  s.weave.installed.bind fun w =>
    (w.mcast.find? fun m => m.tree == tree && m.clause == c && m.network == 0).map fun m =>
      (m.nodes.map (·.node)).filter (· < 0x8000)

/-- Whether an HBM address is remote (R378). -/
def isRemote (a : BitVec 64) : Bool := a.getLsbD 63

/-- The device a remote address names. -/
def remoteDev (a : BitVec 64) : Nat := a.toNat / 2 ^ 40 % 2 ^ 16

/-- Whether an address leads to another device: one that names this device is served as local (R378). -/
def State.elsewhere (s : State) (a : BitVec 64) : Bool := isRemote a && !(remoteDev a == s.devId)

/-- The address within its device. -/
def hbmPart (a : BitVec 64) : Nat := if isRemote a then a.toNat % 2 ^ 40 else a.toNat

/-- Whether bits [62:56] of a remote address break R378. -/
def remoteBad (a : BitVec 64) : Bool := isRemote a && !(a.toNat / 2 ^ 56 % 2 ^ 7 == 0)

/-- The memory and region faults of a descriptor with rows, in the order of R149, R378 and R150: cause and address. -/
def dmaFault (x : Ctx) (d : DmaDesc) : Option (Nat × BitVec 64) :=
  let multi := d.flags % 2 == 1
  let last := dmaRow d.sram d.sramStride (d.rows - 1)
  if !(d.addr.toNat % 4 == 0) then some (3, d.addr)
  else if !(d.sram % 4 == 0 && d.rowBytes % 4 == 0 && d.hbmStride % 4 == 0 && d.sramStride % 4 == 0) then
    some (3, BitVec.ofNat 64 d.sram)
  else if multi && (d.dir == 1 || isRemote d.addr || (x.s.mcastTiles x.c d.tree).isNone) then some (3, d.addr)
  else if (if multi then sramSize else x.sramEnd) < last + d.rowBytes then some (3, BitVec.ofNat 64 last)
  else if remoteBad d.addr then some (3, d.addr)
  else if x.s.elsewhere d.addr then none
  else
    match (List.range d.rows).find? fun r =>
        !x.s.dmaRegion x.c (dmaRow (hbmPart d.addr) d.hbmStride r) d.rowBytes (d.dir == 1) with
    | some r => some (4, BitVec.ofNat 64 (dmaRow (hbmPart d.addr) d.hbmStride r))
    | none => none

/-- The rows of a transfer. -/
def DmaDesc.span (d : DmaDesc) : RowSpan :=
  { base := hbmPart d.addr, rows := d.rows, stride := d.hbmStride, bytes := d.rowBytes }

/-- The messages of a remote transfer, one for each row. -/
def State.dmaRequests (s : State) (t c : Nat) (d : DmaDesc) (src : List (List Byte)) : Via × State :=
  (List.range d.rows).foldl (fun vs r =>
    match vs.1 with
    | .sent ids =>
      let a := dmaRow (hbmPart d.addr) d.hbmStride r
      match vs.2.request t (remoteDev d.addr) a
          (if d.dir = 1 then .dmaWrite c a (src.getD r []) d.span else .dmaRead c a d.rowBytes d.span) with
      | some (id, s') => (.sent (ids ++ [id]), s')
      | none => (.unreachable, vs.2)
    | v => (v, vs.2)) (.sent [], s)

/-- Whether two sets of spans (start, length) share a byte. -/
def spansMeet (l m : List (Nat × Nat)) : Bool := l.any fun a => m.any fun b => a.1 < b.1 + b.2 && b.1 < a.1 + a.2

/-- Whether two accesses to HBM go to the same device. -/
def sameDevice (v w : Via) (a b : BitVec 64) : Bool :=
  if v = .here then w == .here else w != .here && remoteDev a == remoteDev b

/-- The HBM bytes of a transfer, row by row. -/
def Dma.hbmSpans (d : Dma) : List (Nat × Nat) := tab d.rows fun r => (dmaRow d.hbm d.hbmStride r, d.rowBytes)

/-- The parts of tiles that a fill writes. -/
def Dma.fills (members : List Nat) (d : Dma) : List (Nat × Nat × Nat) :=
  (List.range d.rows).flatMap fun r =>
    let a := dmaRow d.sram d.sramStride r
    match d.dests with
    | some ts => ts.map fun t => (t, a, d.rowBytes)
    | none => tileParts members a d.rowBytes

/-- Whether two transfers of a tile touch the same bytes for one phrase, so that they take effect in program order: in HBM
where one writes there, or in SRAM where both are fills (R146). -/
def Dma.meets (members : List Nat) (d e : Dma) : Bool :=
  d.slot == e.slot &&
    ((sameDevice d.via e.via d.addr e.addr && (d.toHbm || e.toHbm) && spansMeet d.hbmSpans e.hbmSpans) ||
      (!d.toHbm && !e.toHbm && (d.fills members).any fun a => (e.fills members).any fun b =>
        a.1 == b.1 && spansMeet [a.2] [b.2]))

/-- Whether an atomic and a transfer of a tile touch the same bytes for one phrase (R146). -/
def AtomReq.meetsDma (t : Nat) (d : Dma) (e : AtomReq) : Bool :=
  !e.isFold && e.tile == t && e.slot == d.slot && sameDevice d.via e.via d.addr e.addr &&
    spansMeet d.hbmSpans [(e.hbm, atomWidth e.code)]

/-- The transfer that a descriptor without a fault starts (R146, R148). -/
def dmaStart (x : Ctx) (tag : Nat) (d : DmaDesc) : State :=
  let src := if d.dir = 1 then tab d.rows fun r => x.load (dmaRow d.sram d.sramStride r) d.rowBytes else []
  let (via, s) := if x.s.elsewhere d.addr then x.s.dmaRequests x.t x.c d src else (.here, x.s)
  let e : Dma :=
    { slot := x.p, tag := tag, pc := x.ph.pc, word := wordOf 0x17 x.f, toHbm := d.dir == 1,
      dests := if d.flags % 2 = 1 then x.s.mcastTiles x.c d.tree else none, rows := d.rows, addr := d.addr,
      hbm := hbmPart d.addr, sram := d.sram, rowBytes := d.rowBytes, hbmStride := d.hbmStride,
      sramStride := d.sramStride, src := src, via := via, stamp := x.s.nextReq }
  let parts : List (Nat × Nat × Nat) := if d.dir = 1 then [] else e.fills x.cr.members
  let s := { s with nextReq := s.nextReq + 1, free := s.free + (parts.map fun (k : Nat × Nat × Nat) => k.2.2).sum }
  let k : Fill := { slot := x.p, tag := tag, stamp := x.s.nextReq, parts := parts, free := x.s.free, newer := [] }
  (s.modTile x.t fun T =>
    { T with dmas := T.dmas ++ [e], fills := if d.dir = 1 then T.fills else T.fills ++ [k] }).tally x.t 0x29 1

/-- Whether an operation issued before a transfer by its phrase touches the same bytes and has not been performed. -/
def State.dmaBehind (s : State) (t : Nat) (members : List Nat) (d : Dma) : Bool :=
  (s.tile t).dmas.any (fun e => decide (e.stamp < d.stamp) && e.meets members d) ||
    s.atoms.any fun e => decide (e.stamp < d.stamp) && e.meetsDma t d

/-- A phrase with the status of a DMA tag set. -/
def Phrase.setTag (ph : Phrase) (tag status : Nat) : Phrase := { ph with tags := ph.tags.set tag status }

/-- DMA's effect. -/
def dmaRes (x : Ctx) : Res :=
  let tag := x.f.imm.toNat % 16
  let at_ := (x.ph.rs x.f.a).toNat
  if x.T.dmas.any fun d => d.slot == x.p && d.tag == tag then .wait
  else if !x.sramOk at_ 32 32 then .fault 3 (x.ph.rs x.f.a) none
  else
    let d := parseDma (x.load at_ 32)
    if 1 < d.dir || 1 < d.flags || (d.flags == 0 && !(d.tree == 0)) then .fault 3 (x.ph.rs x.f.a) none
    else if d.rows = 0 || d.rowBytes = 0 then .done (x.s.tally x.t 0x29 1) (x.ph.setTag tag stOK)
    else
      match dmaFault x d with
      | some (cause, addr) => .fault cause addr none
      | none => .done (dmaStart x tag d) (x.ph.setTag tag stOK)

/-- DMA. -/
def execDma (t p : Nat) (f : Fields) (s : State) : Host.Outcome State Fault Refusal :=
  issue 0x17 { a := true, imm := 0xF } t p f dmaRes s

/-- The fills of a phrase's tags awaited: what they filled is defined (R146). -/
def Tile.awaited (p m : Nat) (T : Tile) : Tile :=
  { T with fills := T.fills.filter fun k => !(k.slot == p && bitAt m k.tag) }

/-- DMAW's effect: the worst status of the tags in its mask (R146, R151). -/
def dmawRes (x : Ctx) : Res :=
  let m := x.f.imm.toNat % 2 ^ 16
  if x.T.dmas.any fun d => d.slot == x.p && bitAt m d.tag then .wait
  else
    let bad := (List.range 16).any fun k => bitAt m k && x.ph.tags.getD k 0 == stUncorr
    .done (x.s.modTile x.t (Tile.awaited x.p m)) (x.ph.ws x.f.d (if bad then BitVec.ofNat 64 stUncorr else BitVec.ofNat 64 stOK))

/-- DMAW. -/
def execDmaw (t p : Nat) (f : Fields) (s : State) : Host.Outcome State Fault Refusal :=
  issue 0x18 { d := true, imm := 0xFFFF } t p f dmawRes s

/-- What a transfer has met so far: the state, whether an uncorrected error struck it, the first address that met
HALF_ASLEEP, the first that was refused, the bytes moved. -/
structure Moved where
  s : State
  uncorr : Bool := false
  asleep : Option Nat := none
  refused : Bool := false
  bytes : Nat := 0

/-- The runs of a row by the half that holds them (R324, R388). -/
def halfRuns (a n : Nat) : List (Nat × Nat) :=
  let cut := 6 * stackSize
  if a < cut && cut < a + n then [(a, cut - a), (cut, a + n - cut)] else [(a, n)]

/-- Bytes that arrive in SRAM at a transfer's destination: every tile of a multicast, or the clause (R326). -/
def State.dmaStore (s : State) (members : List Nat) (d : Dma) (at_ : Nat) (l : List Byte) : State :=
  match d.dests with
  | some ts => ts.foldl (fun s t => s.modTile t fun T => { T with sram := T.sram.write at_ l }) s
  | none => s.sramWrite members at_ l

/-- One run of a row of a transfer within this device (R151, R324, R393). -/
def dmaRun (c : Nat) (members : List Nat) (d : Dma) (r : Nat) (m : Moved) (an : Nat × Nat) : Moved :=
  let row := dmaRow d.hbm d.hbmStride r
  let o := an.1 - row
  if m.s.hbmAsleep an.1 an.2 then { m with asleep := some (m.asleep.getD an.1) }
  else if d.toHbm then
    let (s, struck) := m.s.hbmWrite an.1 (slice (d.src.getD r []) o an.2)
    { m with s := if struck.isSome then s.noteRunUncorr c struck else s, uncorr := m.uncorr || struck.isSome,
             bytes := m.bytes + an.2 }
  else
    let (l, s, struck) := m.s.hbmRead an.1 an.2
    let s := if struck.isSome then s.noteRunUncorr c struck else s
    { m with s := s.dmaStore members d (dmaRow d.sram d.sramStride r + o) l, uncorr := m.uncorr || struck.isSome,
             bytes := m.bytes + an.2 }

/-- The parts stored to since a transfer of a tile was issued. -/
def State.overOf (s : State) (t : Nat) (d : Dma) : List (Nat × Nat × Nat) :=
  (((s.tile t).fills.find? fun k => k.stamp == d.stamp).map (·.newer)).getD []

/-- Parts of tiles as they stood in an earlier state: what was stored after a fill was issued outlasts it (R146). -/
def State.keepParts (s old : State) (parts : List (Nat × Nat × Nat)) : State :=
  parts.foldl (fun s k =>
    s.modTile k.1 fun T => { T with sram := T.sram.write k.2.1 ((old.tile k.1).sram.read k.2.1 k.2.2) }) s

/-- All rows of a transfer within this device. -/
def dmaHere (s : State) (c : Nat) (members : List Nat) (d : Dma) : Moved :=
  (List.range d.rows).foldl (fun m r =>
    (halfRuns (dmaRow d.hbm d.hbmStride r) d.rowBytes).foldl (dmaRun c members d r) m) { s := s }

/-- The answers to a transfer to another device, row by row (R379). -/
def dmaAnswer (c : Nat) (members : List Nat) (d : Dma) (m : Moved) (ri : Nat × Nat) : Moved :=
  let at_ := dmaRow d.sram d.sramStride ri.1
  match m.s.response ri.2 with
  | some (.readResp l) =>
    { m with s := m.s.dmaStore members d at_ (fitTo d.rowBytes l), bytes := m.bytes + d.rowBytes }
  | some (.uncorr l) =>
    let s := m.s.noteRunUncorr c none
    { m with s := if d.toHbm then s else s.dmaStore members d at_ (fitTo d.rowBytes l), uncorr := true,
             bytes := m.bytes + d.rowBytes }
  | some .refused => { m with refused := true }
  | some (.halfAsleep a struck l) =>
    let s := if struck then m.s.noteRunUncorr c none else m.s
    let n := a - dmaRow d.hbm d.hbmStride ri.1
    { m with s := if d.toHbm then s else s.dmaStore members d at_ (l.take n), uncorr := m.uncorr || struck,
             asleep := some (m.asleep.getD (d.addr.toNat - d.hbm + a)), bytes := m.bytes + min n d.rowBytes }
  | some _ => { m with bytes := m.bytes + d.rowBytes }
  | none => m

/-- Where a transfer can complete: at once, or once every row of a remote one has its answer. -/
def State.viaReady (s : State) (v : Via) : Bool :=
  match v with
  | .sent ids => ids.all fun i => (s.response i).isSome
  | _ => true

/-- Whether the target has refused a transfer, which then moves no data (R379). -/
def State.dmaRefused (s : State) (ids : List Nat) : Bool := ids.any fun i => s.response i == some .refused

/-- The effect of a transfer's rows, by how they reach HBM. -/
def State.dmaMove (s : State) (t c : Nat) (members : List Nat) (d : Dma) : Moved :=
  match d.via with
  | .here =>
    let m := dmaHere s c members d
    { m with s := m.s.keepParts s (s.overOf t d) }
  | .unreachable => { s := s, refused := true }
  | .sent ids =>
    if s.dmaRefused ids then { s := s.dropResps ids, refused := true }
    else
      let m := ((List.range d.rows).zip ids).foldl (dmaAnswer c members d) { s := s }
      { m with s := (m.s.keepParts s (s.overOf t d)).dropResps ids }

/-- The status a transfer leaves in its tag. -/
def Moved.status (m : Moved) : Nat := if m.uncorr then stUncorr else if m.asleep.isSome then stHalfAsleep else stOK

/-- What a completed transfer leaves: its tag's status, its counts, and the faults taken at completion (R325, R379). -/
def dmaFinish (t : Nat) (d : Dma) (m : Moved) : State :=
  let s := m.s.modTile t fun T =>
    { T with dmas := T.dmas.filter fun e => !(e.slot == d.slot && e.tag == d.tag),
             slots := T.slots.modify d.slot fun q => q.map fun ph => ph.setTag d.tag m.status }
  let s := s.tally t (if d.toHbm then 0x2B else 0x2A) (units64 m.bytes)
  let s := if m.uncorr then s.tally t 0x58 1 else s
  let hi := d.word.extractLsb' 32 32
  let s := match m.asleep with
    | some a => ((s.tally t 0x59 1).noteAsleep).fault t d.slot d.pc 5 hi (BitVec.ofNat 64 a)
    | none => s
  if m.refused then s.fault t d.slot d.pc 4 hi d.addr else s

/-- DMA_TRANSFER_COMPLETE: the transfer of a phrase's tag completes, after those operations of the phrase before it that
touch the same bytes (R146). -/
def execDmaTransferComplete (t p tag : Nat) (s : State) : Host.Outcome State Fault Refusal :=
  match (s.tile t).dmas.find? fun d => d.slot == p && d.tag == tag, (s.tile t).clause with
  | some d, some c =>
    if s.tileUp t && s.viaReady d.via && !s.dmaBehind t (s.members c) d then .next (dmaFinish t d (s.dmaMove t c (s.members c) d)) else .next s
  | _, _ => .next s

/-! ## Atomics (R171, R343-R347) -/

/-- The region fault's test: an atomic region of the clause that holds the cell (R171). -/
def State.atomRegion (s : State) (c a w : Nat) : Bool :=
  s.regions.any fun r => r.grants c && r.holds a w && r.kind == 2

/-- A lane's address in ATOM (R594). -/
def Ctx.atomAddr (x : Ctx) (l : Nat) : BitVec 64 := x.ph.rs x.f.a + (x.ph.lane x.f.b.toNat l).setWidth 64

/-- A lane's fault in ATOM: cause (R171, R378). -/
def Ctx.atomFault (x : Ctx) (w l : Nat) : Option Nat :=
  let a := x.atomAddr l
  if remoteBad a then some 3
  else if !(hbmPart a % w == 0) then some 4
  else if x.s.elsewhere a || x.s.atomRegion x.c (hbmPart a) w then none
  else some 4

/-- A lane's operand: int32 from v[c], int64 from v[c] and v[c+1] (R157). -/
def Ctx.atomOperand (x : Ctx) (wide : Bool) (l : Nat) : Int :=
  let lo := x.ph.lane x.f.c.toNat l
  if wide then (x.ph.lane (x.f.c.toNat + 1) l ++ lo).toInt else lo.toInt

/-- A lane's atomic put on its way. -/
def State.sendAtom (s : State) (x : Ctx) (code : BitVec 3) (l : Nat) : State :=
  let a := x.atomAddr l
  let v := x.atomOperand (code.getLsbD 2) l
  let (via, s) :=
    if x.s.elsewhere a then
      match s.request x.t (remoteDev a) (hbmPart a) (.atomic x.c (hbmPart a) code v) with
      | some (id, s') => (Via.sent [id], s')
      | none => (.unreachable, s)
    else (.here, s)
  { s with atoms := s.atoms ++ [{ clause := x.c, tile := x.t, slot := x.p, pc := x.ph.pc, word := wordOf 0x92 x.f,
                                  isFold := false, via := via, addr := a, hbm := hbmPart a, code := code,
                                  operand := v, stamp := s.nextReq }]
           nextReq := s.nextReq + 1 }

/-- ATOM's effect. -/
def atomRes (x : Ctx) : Res :=
  let code := x.f.imm.extractLsb' 0 3
  let w := atomWidth code
  if code.toNat % 4 = 3 || (code.getLsbD 2 && x.f.c == 31) then .illegal
  else
    match x.lanes.find? fun l => (x.atomFault w l).isSome with
    | some l => .fault ((x.atomFault w l).getD 4) (x.atomAddr l) none
    | none => .done ((x.lanes.foldl (fun s l => s.sendAtom x code l) x.s).tally x.t 0x2D x.lanes.length) x.ph

/-- ATOM. -/
def execAtom (t p : Nat) (f : Fields) (s : State) : Host.Outcome State Fault Refusal :=
  issue 0x92 { a := true, b := true, c := true, imm := 0x7, lanewise := true } t p f atomRes s

/-- Whether an earlier atomic of one source touches the same bytes: they take effect in program order (R146). -/
def AtomReq.before (e k : AtomReq) : Bool :=
  e.tile == k.tile && e.slot == k.slot && e.isFold == k.isFold && sameDevice e.via k.via e.addr k.addr &&
    spansMeet [(e.hbm, atomWidth e.code)] [(k.hbm, atomWidth k.code)]

/-- Whether a transfer that the phrase of an atomic issued before it touches the same bytes (R146). -/
def State.atomBehind (s : State) (k : AtomReq) : Bool :=
  (s.tile k.tile).dmas.any fun d => decide (d.stamp < k.stamp) && k.meetsDma k.tile d

/-- The fault of an atomic taken when it completes (R325, R379); a fold takes none. -/
def State.atomFails (s : State) (e : AtomReq) (cause : Nat) : State :=
  if e.isFold then s else s.fault e.tile e.slot e.pc cause (e.word.extractLsb' 32 32) e.addr

/-- An atomic that an uncorrected error met (R347). -/
def State.atomUncorr (s : State) (e : AtomReq) (line : Option Nat) : State :=
  (s.noteRunUncorr e.clause line).tally e.tile 0x58 1

/-- An atomic on its way that its controller, or another device's, has dealt with. -/
def State.atomDone (s : State) (e : AtomReq) : State :=
  match e.via with
  | .here =>
    if s.hbmAsleep e.hbm (atomWidth e.code) then ((s.tally e.tile 0x59 1).noteAsleep).atomFails e 5
    else
      let (s, uncorr, held) := s.atomic e.hbm e.code e.operand
      if uncorr then s.atomUncorr e (some (e.hbm / 64 * 64)) else if held then s.noteSat e.clause 2 else s
  | .unreachable => s.atomFails e 4
  | .sent ids =>
    let r := s.response (ids.headD 0)
    let s := s.dropResps ids
    match r with
    | some .refused => s.atomFails e 4
    | some (.halfAsleep ..) => ((s.tally e.tile 0x59 1).noteAsleep).atomFails e 5
    | some (.uncorr _) => s.atomUncorr e none
    | some (.done true) => s.noteSat e.clause 2
    | _ => s

/-- HBM_ATOMIC: atomic k of those on their way is performed. -/
def execHbmAtomic (k : Nat) (s : State) : Host.Outcome State Fault Refusal :=
  match s.atoms[k]? with
  | some e =>
    if s.up && s.viaReady e.via && !(s.atoms.take k).any (·.before e) && !s.atomBehind e then
      .next ({ s with atoms := s.atoms.eraseIdx k }.atomDone e)
    else .next s
  | none => .next s

/-! ## HBM controllers (R393, R497, R590, R597) -/

/-- A stack goes offline (R393). -/
def State.stackOffline (s : State) (i : Nat) : State :=
  (s.modStack i fun k => { k with offline := true, parity := satAdd 8 k.parity 1 }).raise irqHbmFatal

/-- What the stack did to the line at a, recorded before the access is answered (R393). -/
def State.hbmEvent (s : State) (a : Nat) (read : Bool) (ev : HbmEvent) : State :=
  let i := a / stackSize
  match ev with
  | .clean => s
  | .corrected => s.modStack i fun k => { k with corr := satAdd 40 k.corr 1 }
  | .uncorrected =>
    if read && !(s.stack i).offline then { s with bad := if s.bad.contains (a / 64) then s.bad else s.bad ++ [a / 64] }
    else s
  | .parityLost => if (s.stack i).offline then s else s.stackOffline i

/-- An access answered: HALF_ASLEEP, or a read or a write with its status. -/
def State.hbmAnswer (s : State) (a : Nat) (acc : HbmAcc) (ev : HbmEvent) : State :=
  match acc with
  | .read n =>
    if n = 0 then { s with hbmResp := { status := stOK, data := [] } }
    else if s.hbmAsleep a n then { s.noteAsleep with hbmResp := { status := stHalfAsleep, data := [] } }
    else
      let (l, s, struck) := (s.hbmEvent a true ev).hbmRead a n
      { s with hbmResp := { status := if struck.isSome then stUncorr else stOK, data := l } }
  | .write l =>
    if l.isEmpty then { s with hbmResp := { status := stOK, data := [] } }
    else if s.hbmAsleep a l.length then { s.noteAsleep with hbmResp := { status := stHalfAsleep, data := [] } }
    else
      let (s, struck) := (s.hbmEvent a false ev).hbmWrite a l
      { s with hbmResp := { status := if struck.isSome then stUncorr else stOK, data := [] } }

/-- Bytes an access touches. -/
def accBytes : HbmAcc → Nat
  | .read n => n
  | .write l => l.length

/-- HBM_ACCESS: an access at a trained stack's controller. -/
def execHbmAccess (addr : Nat) (acc : HbmAcc) (ev : HbmEvent) (s : State) : Host.Outcome State Fault Refusal :=
  if s.up && decide (addr + accBytes acc ≤ hbmEnd) && (s.stack (addr / stackSize)).up then .next (s.hbmAnswer addr acc ev)
  else .next s

/-- HBM_REFRESH: a stack refreshes at the rate its temperature readout requires, no bit changes, and the counts of its error
check and scrub are read into HBM_ERR as corrected events (R391, R394, R497). -/
def execHbmRefresh (stack : Nat) (sense : HbmSense) (s : State) : Host.Outcome State Fault Refusal :=
  if (s.stack stack).up || (s.stack stack).selfRefresh then
    .next (s.modStack stack fun k => { k with temp := sense.temp % 256, corr := satAdd 40 k.corr sense.scrub })
  else .next s

/-! ## Accesses from other devices (R378, R379) -/

/-- How many of n bytes at a, the first ones, lie in a half that serves (R324). -/
def State.awakePart (s : State) (a n : Nat) : Nat := if s.hbmAsleep a n then min n (6 * stackSize - a) else n

/-- A row of a remote write: the awake half's part (R324). -/
def State.remoteWrite (s : State) (a : Nat) (l : List Byte) : State × LinkBody :=
  let n := s.awakePart a l.length
  let (s, struck) := s.hbmWrite a (l.take n)
  if n < l.length then (s.noteAsleep, .halfAsleep (a + n) struck.isSome [])
  else (s, if struck.isSome then .uncorr [] else .done false)

/-- A row of a remote read: the awake half's part (R324). -/
def State.remoteRead (s : State) (a n : Nat) : State × LinkBody :=
  let k := s.awakePart a n
  let (l, s, struck) := s.hbmRead a k
  if k < n then (s.noteAsleep, .halfAsleep (a + k) struck.isSome l)
  else (s, if struck.isSome then .uncorr l else .readResp l)

/-- Whether a clause may make a whole transfer (R150). -/
def State.spanOk (s : State) (c : Nat) (d : RowSpan) (write : Bool) : Bool :=
  (List.range d.rows).all fun r => s.dmaRegion c (dmaRow d.base d.stride r) d.bytes write

/-- What this device does with a request and answers (R150, R379): a row of a transfer that breaks R150 anywhere is
refused. -/
def State.remoteServe (s : State) (b : LinkBody) : State × LinkBody :=
  match b with
  | .dmaWrite c a l d => if s.dmaRegion c a l.length true && s.spanOk c d true then s.remoteWrite a l else (s, .refused)
  | .dmaRead c a n d => if s.dmaRegion c a n false && s.spanOk c d false then s.remoteRead a n else (s, .refused)
  | .atomic c a code v =>
    if !s.atomRegion c a (atomWidth code) || !(a % atomWidth code == 0) || code.toNat % 4 == 3 then (s, .refused)
    else if s.hbmAsleep a (atomWidth code) then (s.noteAsleep, .halfAsleep a false [])
    else
      let (s, uncorr, held) := s.atomic a code v
      (s, if uncorr then .uncorr [] else .done held)
  | _ => (s, .refused)

/-- REMOTE_ACCESS: a request that arrived on link n and is the first there for its stack is performed and answered; one
that concerns the clause of a REPLAY waits for its end (R448). -/
def execRemoteAccess (n : Nat) (m : Msg) (s : State) : Host.Outcome State Fault Refusal :=
  let q := (s.link n).rxq
  if s.up && ((q.find? fun e => e.dstNode == m.dstNode) == some m) && !s.replaying (reqClause m.body) then
    let s := s.modLink n fun k => { k with rxq := k.rxq.erase m }.drained m.buf
    let (s, b) := s.remoteServe m.body
    let answer : Msg := { id := m.id, vc := 0, resp := true, dst := m.src, dstNode := m.srcNode, src := s.devId,
                          srcNode := m.dstNode, body := b, wire := [], buf := none }
    .next ((s.sendMsg (decide (stackNode 6 ≤ m.dstNode)) false answer).getD s)
  else .next s

end Sys2Proof.Machine
end

