-- ==== Sys2Proof/Machine/SeqMisc.lean ====
section
/-! DEFINITION. Random instructions, stops, tallies and the debug breakpoint (R152-R154, R169-R173, R284-R290, R530). -/
namespace Sys2Proof.Machine

/-! ## Random (R169, R170, R284-R290) -/

/-- The key slot of a random instruction. -/
def Ctx.randSlot (x : Ctx) : Nat := x.f.imm.toNat % 16

/-- Whether it selects lane mode. -/
def Ctx.randLane (x : Ctx) : Bool := x.f.imm.getLsbD 4

/-- A lane's block in RDRAW and RDROP: at s[b] + v[c][l], or at the thread's counter. -/
def Ctx.randBlock (x : Ctx) (key : List Byte) (l : Nat) (d : Draws) : List Nat × Draws :=
  drawBlock key x.randLane (x.ph.rs x.f.a).toNat ((x.ph.rs x.f.b).toNat + (x.ph.lane x.f.c.toNat l).toNat) (x.ph.base + l)
    l d

/-- The blocks of the active lanes in ascending order, with the counters after them. -/
def Ctx.randBlocks (x : Ctx) (key : List Byte) : List (Nat × List Nat) × Draws :=
  ((List.range 64).filter fun l => (x.ph.active x.f).getLsbD l).foldl (fun a l =>
    let (w, d) := x.randBlock key l a.2
    (a.1 ++ [(l, w)], d)) ([], x.ph.draws)

/-- A lane's word among drawn blocks. -/
def wordAt (l : List (Nat × List Nat)) (i w : Nat) : Nat :=
  match l.find? fun e => e.1 == i with
  | some e => e.2.getD w 0
  | none => 0

/-- RDRAW's effect. -/
def rdrawRes (x : Ctx) : Res :=
  match x.key x.randSlot with
  | none => .lostKey x.randSlot
  | some k =>
    if x.laneDrawWaits x.randLane then .wait
    else
      let (l, d) := x.randBlocks k
      let v := mergeLanes (x.ph.active x.f) (x.ph.rv x.f.d.toNat) fun i =>
        BitVec.ofNat 32 (wordAt l i (x.f.imm.toNat / 32 % 4))
      .done (x.s.tookDraws x.t d false) ({ x.ph with ctr := d.ctr }.wv x.f.d.toNat v)

/-- RDRAW. -/
def execRdraw (t p : Nat) (f : Fields) (s : State) : Host.Outcome State Fault Refusal :=
  issue 0x70 { d := true, a := true, b := true, c := true, imm := 0x7F, lanewise := true } t p f rdrawRes s

/-- RCTX's effect: the active lanes are those below the lane count. -/
def rctxRes (x : Ctx) : Res :=
  if (x.randLane && x.s.policy.det == 1) || (x.s.grantedKey x.c x.randSlot).isNone then .bad 10
  else
    let pos := tab 64 fun l =>
      if l < x.ph.lanes then x.ph.rs x.f.b + (x.ph.lane x.f.c.toNat l).setWidth 64 else x.ph.rctx.pos.getD l 0
    .done x.s { x.ph with
      rctx := { slot := some x.randSlot, lane := x.randLane, stream := x.ph.rs x.f.a, pos := pos } }

/-- RCTX. -/
def execRctx (t p : Nat) (f : Fields) (s : State) : Host.Outcome State Fault Refusal :=
  issue 0x71 { a := true, b := true, c := true, imm := 0x1F } t p f rctxRes s

/-- RDROP's effect: a lane is kept when bits [31:8] of its block's word 0 reach the threshold imm[31:8]. -/
def rdropRes (x : Ctx) : Res :=
  if 8 ≤ x.f.d.toNat then .illegal
  else if x.randLane && x.s.policy.det == 1 then .bad 10
  else
    match x.key x.randSlot with
    | none => .lostKey x.randSlot
    | some k =>
      if x.laneDrawWaits x.randLane then .wait
      else
        let (l, d) := x.randBlocks k
        let keep := fun i => decide (x.f.imm.toNat / 256 ≤ wordAt l i 0 / 256)
        let old := x.ph.rp x.f.d.toNat
        let r := BitVec.ofNat 64 (ofBits 64 fun i => if (x.ph.active x.f).getLsbD i then keep i else old.getLsbD i)
        .done ((x.s.tookDraws x.t d false).tally x.t 0x1C (l.countP fun e => !keep e.1))
          ({ x.ph with ctr := d.ctr }.wp x.f.d.toNat r)

/-- RDROP. -/
def execRdrop (t p : Nat) (f : Fields) (s : State) : Host.Outcome State Fault Refusal :=
  issue 0x72 { d := true, a := true, b := true, c := true, imm := 0xFFFFFF1F, lanewise := true } t p f rdropRes s

/-! ## Stops (R152-R154, R328) -/

/-- The stop an instruction names. -/
def Ctx.stop (x : Ctx) : Nat := x.f.imm.toNat % 16

/-- The generation a stop of a clause is at. -/
def State.genOf (s : State) (c k : Nat) : Nat := ((s.clauseSt c).map fun y => y.gens.getD k 0).getD 0

/-- The generation that a tile's next arrival belongs to: the open one, those its participant count fills left out
(R153; log entry 17, DEDUCED). -/
def arrivalGen (gen count : Nat) (pending : List Nat) : Nat :=
  if count = 0 then gen + 1 else gen + pending.length / count

/-- Whether a stop's counts are all 0 over the members (R153). -/
def State.stopIdle (s : State) (members : List Nat) (k : Nat) : Bool :=
  members.all fun m => (s.tile m).partc.getD k 1 == 0

/-- A stop whose counts are all 0 completes every generation at once: no arrival stays pending, and the generation that
opens is past every one that an arrival belonged to (R153). -/
def State.openStop (s : State) (c : Nat) (members : List Nat) (k : Nat) : State :=
  if s.stopIdle members k then
    let top := (members.flatMap fun m => (s.tile m).arr.getD k []).foldl max (s.genOf c k)
    let s := s.modClause c fun y => { y with gens := y.gens.set k (top + 1) }
    members.foldl (fun s m => s.modTile m fun T => { T with arr := T.arr.set k [] }) s
  else s

/-- ARRIVE's effect. -/
def arriveRes (x : Ctx) : Res :=
  if x.s.outstanding x.t x.p then .wait
  else
    let k := x.stop
    let pend := x.T.arr.getD k []
    let g := arrivalGen (x.s.genOf x.c k) (x.T.partc.getD k 1) pend
    let s := x.s.modTile x.t fun T => { T with arr := T.arr.set k (pend ++ [g]) }
    .done ((s.openStop x.c x.cr.members k).tally x.t 0x3B 1)
      { x.ph with arrived := x.ph.arrived.set k (some g) }

/-- ARRIVE. -/
def execArrive (t p : Nat) (f : Fields) (s : State) : Host.Outcome State Fault Refusal :=
  issue 0x80 { imm := 0xF } t p f arriveRes s

/-- Whether every member has counted its arrivals for a generation. -/
def State.stopFull (s : State) (members : List Nat) (k gen : Nat) : Bool :=
  members.all fun m => decide ((s.tile m).partc.getD k 1 ≤ ((s.tile m).arr.getD k []).count gen)

/-- STOP_GENERATION_COMPLETE: the open generation of a clause's stop completes; that of a stop whose counts are all 0
completes at once (R153). -/
def execStopGenerationComplete (c stop : Nat) (s : State) : Host.Outcome State Fault Refusal :=
  match s.clauseRec c with
  | some cr =>
    let g := s.genOf c stop
    if s.up && stop < 16 && s.stopFull cr.members stop g then
      let s := s.modClause c fun y => { y with gens := y.gens.set stop (g + 1) }
      .next (cr.members.foldl (fun s m =>
        s.modTile m fun T => { T with arr := T.arr.modify stop fun l => l.filter (g < ·) }) s)
    else .next s
  | none => .next s

/-- WAIT's effect. -/
def waitRes (x : Ctx) : Res :=
  match x.ph.arrived.getD x.stop none with
  | none => .bad 11
  | some g => if g < x.s.genOf x.c x.stop || x.s.stopIdle x.cr.members x.stop then .done x.s x.ph else .wait

/-- WAIT. -/
def execWait (t p : Nat) (f : Fields) (s : State) : Host.Outcome State Fault Refusal :=
  issue 0x81 { imm := 0xF } t p f waitRes s

/-- STOPN's effect (R152); the count that makes a stop's counts all 0 completes its generations (R153). -/
def stopnRes (x : Ctx) : Res :=
  let n := (x.ph.rs x.f.a).toNat
  if 64 < n || !(x.T.arr.getD x.stop []).isEmpty then .bad 11
  else .done ((x.s.modTile x.t fun T => { T with partc := T.partc.set x.stop n }).openStop x.c x.cr.members x.stop) x.ph

/-- STOPN. -/
def execStopn (t p : Nat) (f : Fields) (s : State) : Host.Outcome State Fault Refusal :=
  issue 0x82 { a := true, imm := 0xF } t p f stopnRes s

/-! ## Tallies and the breakpoint (R172, R173, R540) -/

/-- Counters of a tile in the tally mode in force (R535). -/
def State.tallyCount (s : State) : Nat := if s.tly.cfg.dedicated then 96 else 8

/-- TRD's effect: the live counter (R542). -/
def trdRes (x : Ctx) : Res :=
  let k := x.f.imm.toNat % 128
  if x.s.tallyCount ≤ k then .illegal
  else if x.s.policy.tallyVisible = 0 then .bad 13
  else .done (x.s.tally x.t 0x54 1) (x.ph.ws x.f.d (BitVec.ofNat 64 (x.T.cnt.getD k 0)))

/-- TRD. -/
def execTrd (t p : Nat) (f : Fields) (s : State) : Host.Outcome State Fault Refusal :=
  issue 0xA0 { d := true, imm := 0x7F } t p f trdRes s

/-- TMARK: the event of every tag, and the user mark of its own (R540). -/
def execTmark (t p : Nat) (f : Fields) (s : State) : Host.Outcome State Fault Refusal :=
  issue 0xA1 { imm := 0xFFFF } t p f (fun x =>
    .done ((x.s.tally x.t 0x53 1).tally x.t (0x8000 + x.f.imm.toNat % 2 ^ 15) 1) x.ph) s

/-- HOLD: with hold_en set it holds the tile, and its mates where bp_clause says so; else nothing (R173, R530). -/
def execHold (t p : Nat) (f : Fields) (s : State) : Host.Outcome State Fault Refusal :=
  issue 0xB0 { imm := 0xFF } t p f (fun x =>
    if x.T.dbg.holdEn then
      .done ((x.s.debugHold x.t 3 x.p 0 x.ph.advance.pc).holdMates x.t x.cr.members) x.ph
    else .done x.s x.ph) s

end Sys2Proof.Machine
end

