-- ==== Sys2Proof/Machine/SeqFold.lean ====
section
/-! DEFINITION. Folds (R171, R330-R341, R348, R380-R382): contributions, routers, passes, results. -/
namespace Sys2Proof.Machine

/-! ## Slots and trees -/

/-- A fold slot's record. -/
def State.foldRec (s : State) (slot : Nat) : Option FoldRec :=
  s.weave.installed.bind fun w => w.folds.find? fun r => r.slot == slot

/-- A fold node with nothing in it. -/
def FoldNode.empty : FoldNode := { own1 := [], held := [], own2 := [], up1 := [], up2 := [] }

/-- A slot's state, empty before its first group. -/
def State.foldSt (s : State) (r : FoldRec) : FoldSt :=
  (s.folds.find? fun x => x.slot == r.slot).getD
    { slot := r.slot, nodes := List.replicate r.nodes.length FoldNode.empty, exps := [], sent := [], results := [],
      mismatch := false }

/-- Whether a slot's state holds nothing: no group, no exponent, no result, no mismatch. -/
def FoldSt.idle (x : FoldSt) : Bool :=
  x.nodes.all (· == FoldNode.empty) && x.exps.isEmpty && x.sent.isEmpty && x.results.isEmpty && !x.mismatch

/-- A slot's state written; one that holds nothing any more is gone. -/
def State.setFold (s : State) (x : FoldSt) : State :=
  { s with folds := s.folds.filter (fun y => y.slot != x.slot) ++ if x.idle then [] else [x] }

/-- A two-pass kind (R336). -/
def FoldRec.twoPass (r : FoldRec) : Bool := r.kind == 2 || r.kind == 3

/-- The index of a tree's root. -/
def FoldRec.root (r : FoldRec) : Nat := r.nodes.findIdx fun n => n.parent == 0xFFFF

/-- The node at an index. -/
def FoldRec.node (r : FoldRec) (i : Nat) : Nat := (r.nodes.getD i { node := 0xFFFF, parent := 0xFFFF }).node

/-- Whether a node is a tile. -/
def isTileNode (n : Nat) : Bool := n < 0x8000

/-- Whether a node is a link, and which. -/
def linkOfNode (n : Nat) : Option Nat := if 0x8010 ≤ n ∧ n < 0x8030 then some (n - 0x8010) else none

/-- The indices of a node's children. -/
def FoldRec.children (r : FoldRec) (i : Nat) : List Nat :=
  (List.range r.nodes.length).filter fun j => (r.nodes.getD j { node := 0, parent := 0xFFFF }).parent == i

/-- The index of a tile among a tree's nodes. -/
def FoldRec.indexOf (r : FoldRec) (t : Nat) : Option Nat := firstIdx r.nodes fun n => n.node == t

/-- Two-pass slots that a tile contributes to. -/
def State.twoPassSlots (s : State) (t : Nat) : Nat :=
  ((s.weave.installed.map (·.folds)).getD []).countP fun r => r.twoPass && (r.indexOf t).isSome

/-- A slot's share of a tile's fold buffer (R341). -/
def State.foldShare (s : State) (t : Nat) : Nat := max 1 (64 / s.twoPassSlots t)

/-- Groups a tile's fold buffer holds (R348). -/
def State.foldBuffered (s : State) (t : Nat) : Nat :=
  (s.folds.map fun x =>
    match (s.foldRec x.slot).bind fun r => r.indexOf t with
    | some i => (x.nodes.getD i FoldNode.empty).held.length
    | none => 0).sum

/-! ## Conversions (R336-R338) -/

/-- The fp32 pattern of a float contribution: bf16 is converted exactly (R336). -/
def foldPattern (kind : Nat) (v : BitVec 32) : Nat := if kind = 3 then v.toNat % 2 ^ 16 * 2 ^ 16 else v.toNat

/-- ε of a pattern; -150 for a zero, and for what only flags carry (R337). -/
def foldEps (b : Nat) : Int :=
  match Fp.decode .fp32 b with
  | .fin _ m e => if m = 0 then -150 else e + (Nat.log2 m : Nat)
  | _ => -150

/-- A finite pattern times 2^k, rounded to the nearest integer, ties to even; 0 for what only flags carry. -/
def foldScaled (b : Nat) (k : Int) : Int :=
  match Fp.decode .fp32 b with
  | .fin n m e =>
    let v : Int := { neg := n, m := m, e := e + k, more := false : Exact }.round 0 none
    if n then -v else v
  | _ => 0

/-- The elements of 64 patterns for which a test holds, as a mask. -/
def foldMask (l : List Nat) (f : Fp → Bool) : BitVec 64 :=
  BitVec.ofNat 64 (ofBits 64 fun i => f (Fp.decode .fp32 (l.getD i 0)))

/-- Whether a number is NaN, +∞ or -∞. -/
def Fp.isNan : Fp → Bool
  | .nan => true
  | _ => false
def Fp.isInf (neg : Bool) : Fp → Bool
  | .inf n => n == neg
  | _ => false

/-- A group of float patterns with its flags, and the values a pass carries. -/
def floatGroup (base : Nat) (pats : List Nat) (vals : List Int) (sat : Bool) : Group :=
  { base := base, vals := vals, nan := foldMask pats Fp.isNan, pinf := foldMask pats (Fp.isInf false),
    ninf := foldMask pats (Fp.isInf true), sat := sat }

/-- A group without flags. -/
def plainGroup (base : Nat) (vals : List Int) : Group :=
  { base := base, vals := vals, nan := 0, pinf := 0, ninf := 0, sat := false }

/-- The lanes FSEND contributes as patterns; inactive ones the identity (R330). -/
def Ctx.foldLanes (x : Ctx) (f : Nat → BitVec 64) : List (BitVec 64) :=
  tab 64 fun l => if (x.ph.active x.f).getLsbD l then f l else 0

/-- A group with every value clamped to int64 (R338). -/
def clamped64 (l : List Int) : List Int × Bool := (l.map (clampS 64), l.any fun v => clampS 64 v != v)

/-! ## FSEND (R330-R335) -/

/-- A contribution entered at a tile node. -/
def FoldNode.contribute (r : FoldRec) (base : Nat) (lanes : List (BitVec 64)) (mk : Group → FGroup) (n : FoldNode) :
    FoldNode :=
  match r.kind with
  | 0 => { n with own2 := n.own2 ++ [mk (plainGroup base (lanes.map fun v => (v.setWidth 32).toInt))] }
  | 1 => { n with own2 := n.own2 ++ [mk (plainGroup base (lanes.map (·.toInt)))] }
  | 4 =>
    let pats := lanes.map fun v => foldPattern 4 (v.setWidth 32)
    let (c, sat) := clamped64 (pats.map fun b => foldScaled b (-r.scale))
    { n with own2 := n.own2 ++ [mk (floatGroup base pats c sat)] }
  | k =>
    let pats := lanes.map fun v => foldPattern k (v.setWidth 32)
    { n with
      own1 := n.own1 ++ [mk (floatGroup base pats (pats.map foldEps) false)]
      held := n.held ++ [mk (plainGroup base (pats.map Int.ofNat))] }

/-- FSEND's effect. -/
def fsendRes (x : Ctx) : Res :=
  let slot := x.f.imm.toNat % 1024
  let wide := x.f.imm.getLsbD 10
  let base := (x.ph.rs x.f.b).toNat
  if wide && x.f.a == 31 then .illegal
  else
    match x.s.foldRec slot with
    | none => .bad 12
    | some r =>
      match r.indexOf x.t with
      | none => .bad 12
      | some i =>
        if !(r.clause == x.c) || !(wide == (r.kind == 1)) || !(base % 64 == 0) ||
            (isTileNode (r.node r.root) && decide (2 ^ 32 ≤ base)) then .bad 12
        else
          let st := x.s.foldSt r
          if r.twoPass && decide (x.s.foldShare x.t ≤ (st.nodes.getD i FoldNode.empty).held.length) then .wait
          else
            let a := x.f.a.toNat
            let lanes := x.foldLanes fun l =>
              if wide then x.ph.lane (a + 1) l ++ x.ph.lane a l else (x.ph.lane a l).setWidth 64
            let mk := fun g =>
              { g := g, tile := x.t, slot := x.p, pc := x.ph.pc, hi := wordHigh 0x90 x.f, stamp := x.s.nextReq : FGroup }
            let s := x.s.setFold { st with nodes := st.nodes.modify i (FoldNode.contribute r base lanes mk) }
            .done ({ s with nextReq := s.nextReq + 1 }.tally x.t 0x38 1) x.ph

/-- FSEND. -/
def execFsend (t p : Nat) (f : Fields) (s : State) : Host.Outcome State Fault Refusal :=
  issue 0x90 { a := true, b := true, imm := 0x7FF, lanewise := true } t p f fsendRes s

/-! ## The path of a tree edge (R17, R312, R320, R339, R589) -/

/-- Global column and row of a physical tile (R312). -/
def meshAt (phys : Nat) : Nat × Nat := (20 * (phys / 512) + phys / 16 % 32, phys % 16)

/-- The physical tile at a global column and row. -/
def physAt (c r : Nat) : Nat := 512 * (c / 20) + 16 * (c % 20) + r

/-- The numbers from a to b, both included. -/
def spanTo (a b : Nat) : List Nat := (List.range (max a b - min a b + 1)).map (min a b + ·)

/-- The routers of the mesh path between two places: along the row, then along the column. -/
def meshPath (a b : Nat × Nat) : List Nat :=
  (spanTo a.1 b.1).map (fun c => physAt c a.2) ++ (spanTo a.2 b.2).map fun r => physAt b.1 r

/-- The columns of a stack's rim routers, and its edge row (R17). -/
def stackCols (i : Nat) : Nat × Nat × Nat :=
  let base := if 6 ≤ i then 20 else 0
  let k := i % 3
  (base + 7 * k, if k = 2 then base + 19 else base + 7 * k + 6, if i % 6 < 3 then 0 else 9)

/-- The place in front of the rim router that joins a tile to a port, where the edge runs over the mesh; none where the
tile lies on that router's spine (R319, R320). -/
def rimEntry (at_ : Nat × Nat) (port : Nat) : Option (Nat × Nat) :=
  match linkOfNode port with
  | some n =>
    let r := n % 16 / 2
    let row := if r < 4 then r else r + 2
    if at_.2 = row ∧ at_.1 / 20 = n / 16 then none else some (if n < 16 then 0 else 39, row)
  | none =>
    let (lo, hi, row) := stackCols (port - 0x8000)
    if lo ≤ at_.1 ∧ at_.1 ≤ hi then none else some (if at_.1 < lo then lo else hi, row)

/-- The routers that forward a group from one node of a tree to its parent. -/
def State.edgePath (s : State) (a b : Nat) : List Nat :=
  match isTileNode a, isTileNode b with
  | true, true => meshPath (meshAt (s.physOf a)) (meshAt (s.physOf b))
  | true, false =>
    match rimEntry (meshAt (s.physOf a)) b with
    | some e => meshPath (meshAt (s.physOf a)) e
    | none => [s.physOf a]
  | false, true =>
    match rimEntry (meshAt (s.physOf b)) a with
    | some e => meshPath e (meshAt (s.physOf b))
    | none => [s.physOf b]
  | false, false => []

/-- FLD_TSTAT.sat_seen set in the tiles of routers that forward a group whose sat bit is set. -/
def State.satSeen (s : State) (sat : Bool) (path : List Nat) : State :=
  if sat then
    path.foldl (fun s ph =>
      match s.logicalOf ph with
      | some t => s.modTile t fun T => { T with fld := { T.fld with satSeen := true } }
      | none => s) s
  else s

/-! ## Combining (R331-R333, R337, R380) -/

/-- A node's queue of its own contributions in a pass, and what it has sent up. -/
def FoldNode.own (n : FoldNode) (pass : Nat) : List FGroup := if pass = 1 then n.own1 else n.own2
def FoldNode.up (n : FoldNode) (pass : Nat) : List FGroup := if pass = 1 then n.up1 else n.up2

/-- A node's own head dropped, and its sent head dropped. -/
def FoldNode.dropOwn (pass : Nat) (n : FoldNode) : FoldNode :=
  if pass = 1 then { n with own1 := n.own1.drop 1 } else { n with own2 := n.own2.drop 1 }
def FoldNode.dropUp (pass : Nat) (n : FoldNode) : FoldNode :=
  if pass = 1 then { n with up1 := n.up1.drop 1 } else { n with up2 := n.up2.drop 1 }

/-- A group sent up by a node. -/
def FoldNode.send (pass : Nat) (g : FGroup) (n : FoldNode) : FoldNode :=
  if pass = 1 then { n with up1 := n.up1 ++ [g] } else { n with up2 := n.up2 ++ [g] }

/-- The heads of a router's inputs: its own contribution, where it is a tile's, and its children's. -/
def foldHeads (r : FoldRec) (x : FoldSt) (i pass : Nat) : List (Option FGroup) :=
  let at_ := fun j => x.nodes.getD j FoldNode.empty
  (if isTileNode (r.node i) then [((at_ i).own pass).head?] else []) ++
    (r.children i).map fun j => ((at_ j).up pass).head?

/-- Two groups combined: the maximum in pass 1, the exact sum in pass 2; the later contributor is kept. -/
def FGroup.join (pass : Nat) (a b : FGroup) : FGroup :=
  let late := if a.stamp < b.stamp then b else a
  { late with
    g := { base := a.g.base, vals := List.zipWith (fun x y => if pass = 1 then max x y else x + y) a.g.vals b.g.vals,
           nan := a.g.nan ||| b.g.nan, pinf := a.g.pinf ||| b.g.pinf, ninf := a.g.ninf ||| b.g.ninf,
           sat := a.g.sat || b.g.sat } }

/-- A fold message of a clause on one link; pass 1 and E travel on VC2 (R381). -/
def State.foldMsg (s : State) (c n : Nat) (vc : BitVec 2) (body : LinkBody) : State :=
  s.queueMsg n (s.replaying (some c))
    { id := 0, vc := vc, resp := false, dst := (s.link n).peerId.toNat, dstNode := linkNode n, src := s.devId,
      srcNode := linkNode n, body := body, wire := [], buf := none }

/-- One element of a float result (R337): its pattern and whether it was clamped. -/
def floatResult (fmt : Fmt) (nan pinf ninf : Bool) (sum : Int) (e : Int) : Nat × Bool :=
  if nan || (pinf && ninf) then (fpNaN fmt, false)
  else if pinf then (fpInf fmt false, false)
  else if ninf then (fpInf fmt true, false)
  else
    let (b, fl) := (Exact.ofInt sum e false).toFp fmt none true
    (b, fl.getLsbD 3)

/-- The result group at the root from the summed group and, in a two-pass fold, its exponents and flags. -/
def foldResult (r : FoldRec) (e g : Group) : Group :=
  match r.kind with
  | 0 => { g with vals := g.vals.map (clampS 32), sat := g.sat || g.vals.any fun v => clampS 32 v != v }
  | 1 => { g with vals := g.vals.map (clampS 64), sat := g.sat || g.vals.any fun v => clampS 64 v != v }
  | k =>
    let flags := if k = 4 then g else e
    let out := tab 64 fun i =>
      floatResult (if k = 3 then .bf16 else .fp32) (flags.nan.getLsbD i) (flags.pinf.getLsbD i) (flags.ninf.getLsbD i)
        (g.vals.getD i 0) (if k = 4 then r.scale else e.vals.getD i 0 - 38)
    { flags with base := g.base, vals := out.map fun o => (o.1 : Int), sat := g.sat || out.any (·.2) }

/-- Whether every element of a group rooted at a stack lands in an atomic region of its clause, in that stack (R335). -/
def State.foldLands (s : State) (r : FoldRec) (g : Group) : Bool :=
  let w := if r.kind = 0 then 4 else 8
  (List.range 64).all fun i =>
    let a := (g.base + i) * w
    s.atomRegion r.clause a w && decide (a / stackSize = r.node r.root - 0x8000)

/-- A group landed at an HBM stack: an atomic add for each element, or the fold fault of its last contributor. -/
def State.foldLand (s : State) (r : FoldRec) (f : FGroup) (g : Group) : State :=
  let w := if r.kind = 0 then 4 else 8
  if s.foldLands r g then
    { s with atoms := s.atoms ++ tab 64 fun i =>
        { clause := r.clause, tile := f.tile, slot := f.slot, pc := f.pc, word := 0, isFold := true, via := .here,
          addr := BitVec.ofNat 64 ((g.base + i) * w), hbm := (g.base + i) * w, code := if w = 4 then 0 else 4,
          operand := g.vals.getD i 0, stamp := f.stamp } }
  else s.fault f.tile f.slot f.pc 12 f.hi 0

/-- What a completed group leaves at the root. -/
def State.foldRoot (s : State) (r : FoldRec) (f : FGroup) (pass : Nat) : State :=
  let root := r.node r.root
  let x := s.foldSt r
  match linkOfNode root with
  | some n => s.foldMsg r.clause n (if pass = 1 then 2 else 0) (.foldGroup r.slot pass f.g)
  | none =>
    if pass = 1 then s.setFold { x with exps := x.exps ++ [f.g] }
    else
      let g := foldResult r (x.sent.headD f.g) f.g
      let s := if g.sat then s.noteSat r.clause 1 else s
      if isTileNode root then
        (s.setFold { x with sent := x.sent.drop 1, results := x.results ++ [g] }).satSeen g.sat [s.physOf root]
      else s.foldLand r f g

/-- A mismatch recorded in a router's tile (R332). -/
def Tile.foldMismatch (slot base : Nat) (T : Tile) : Tile :=
  { T with fld := if T.fld.mismatch then T.fld
                  else { T.fld with mismatch := true, mmSlot := slot, mmBase := BitVec.ofNat 32 base } }

/-- The phrase of a tile whose FSEND to a slot waits at issue for buffer share. -/
def State.fsendWaits (s : State) (r : FoldRec) (t : Nat) : Option Nat :=
  match r.indexOf t with
  | some i =>
    if r.twoPass && decide (s.foldShare t ≤ ((s.foldSt r).nodes.getD i FoldNode.empty).held.length) then
      firstIdx (s.tile t).slots fun q => (q.map fun ph =>
        let w := ((s.tile t).imem[ph.pc]?).getD 0
        w.extractLsb' 56 8 == 0x90 && (w.extractLsb' 0 10).toNat == r.slot).getD false
    else none
  | none => none

/-- The fault of a mismatch in a fold whose root is a port (R333). -/
def State.portMismatch (s : State) (r : FoldRec) (t : Nat) : State :=
  match (s.fsendWaits r t).bind fun p => (s.phraseAt t p).map fun ph => (p, ph) with
  | some (p, ph) => s.fault t p ph.pc 12 ((((s.tile t).imem[ph.pc]?).getD 0).extractLsb' 32 32) 0
  | none => s.fault t 0 0 12 (BitVec.ofNat 32 r.slot) 0

/-- A mismatch at node i with the lowest of its heads' bases (R332, R333). -/
def State.foldMismatch (s : State) (r : FoldRec) (i base : Nat) : State :=
  let x := s.foldSt r
  let tiles := (r.nodes.map (·.node)).filter isTileNode
  let t := if isTileNode (r.node i) then r.node i else tiles.foldl min (tiles.headD 0)
  let s := (s.setFold { x with mismatch := true }).modTile t (Tile.foldMismatch r.slot base)
  if isTileNode (r.node r.root) || x.mismatch then s else s.portMismatch r t

/-- The heads of a node's inputs combined and sent on. -/
def State.foldCombine (s : State) (r : FoldRec) (i pass : Nat) (h : FGroup) (rest : List FGroup) : State :=
  let x := s.foldSt r
  let f := rest.foldl (FGroup.join pass) h
  let nodes := (r.children i).foldl (fun l j => l.modify j (FoldNode.dropUp pass)) (x.nodes.modify i (FoldNode.dropOwn pass))
  let parent := (r.nodes.getD i { node := 0, parent := 0xFFFF }).parent
  let s := if isTileNode (r.node i) then (s.tally (r.node i) 0x39 1).satSeen f.g.sat [s.physOf (r.node i)] else s
  if i = r.root then (s.setFold { x with nodes := nodes }).foldRoot r f pass
  else (s.setFold { x with nodes := nodes.modify i (FoldNode.send pass f) }).satSeen f.g.sat
    (s.edgePath (r.node i) (r.node parent))

/-- The heads of a list of inputs, where none is empty. -/
def allHeads (l : List (Option FGroup)) : Option (List FGroup) :=
  l.foldr (fun a b => a.bind fun x => b.map fun y => x :: y) (some [])

/-- FOLD_GROUP_COMBINE: the router at an index of a slot's tree combines its heads, in pass 1 of a two-pass fold or in the
summing pass 2; after a mismatch a fold delivers nothing further to a port (R333). -/
def execFoldGroupCombine (slot node pass : Nat) (s : State) : Host.Outcome State Fault Refusal :=
  match s.foldRec slot with
  | some r =>
    match allHeads (foldHeads r (s.foldSt r) node pass) with
    | some (h :: rest) =>
      if !s.up || r.nodes.length ≤ node || !(pass == 2 || (pass == 1 && r.twoPass)) ||
          ((s.foldSt r).mismatch && !isTileNode (r.node r.root)) then .next s
      else if rest.all fun g => g.g.base == h.g.base then .next (s.foldCombine r node pass h rest)
      else .next (s.foldMismatch r node (rest.foldl (fun b g => min b g.g.base) h.g.base))
    | _ => .next s
  | none => .next s

/-- A held contribution converted once E has reached its router (R337). -/
def FoldNode.convert (e : Group) (n : FoldNode) : FoldNode :=
  match n.held with
  | [] => n
  | h :: rest =>
    let c := List.zipWith (fun b eps => foldScaled b.toNat (38 - eps)) h.g.vals e.vals
    { n with held := rest, own2 := n.own2 ++ [{ h with g := plainGroup h.g.base c }] }

/-- FOLD_EXPONENT_BROADCAST: the oldest E at the root goes down the tree; over a link leaf it goes to the peer. -/
def execFoldExponentBroadcast (slot : Nat) (s : State) : Host.Outcome State Fault Refusal :=
  match s.foldRec slot with
  | some r =>
    let x := s.foldSt r
    match x.exps with
    | [] => .next s
    | e :: rest =>
      if s.up then
        let keep := (linkOfNode (r.node r.root)).isNone
        let s := s.setFold { x with
          nodes := x.nodes.map (FoldNode.convert e), exps := rest, sent := if keep then x.sent ++ [e] else x.sent }
        let links := (List.range r.nodes.length).filterMap fun i => if i = r.root then none else linkOfNode (r.node i)
        .next (links.foldl (fun s n => s.foldMsg r.clause n 2 (.foldExp r.slot e.base e.vals)) s)
      else .next s
  | none => .next s

/-! ## FRECV (R334, R339) -/

/-- Elements of a result group that are invalid: +∞ and -∞ met and no NaN was contributed. -/
def Group.invalid (g : Group) : Bool := (g.pinf &&& g.ninf &&& ~~~g.nan) != 0

/-- FRECV's effect; its width is its slot's. -/
def frecvRes (x : Ctx) : Res :=
  match x.s.foldRec (x.f.imm.toNat % 1024) with
  | none => .bad 12
  | some r =>
    let st := x.s.foldSt r
    let wide := r.kind == 1
    let d := x.f.d.toNat
    if !(r.clause == x.c) || !(r.node r.root == x.t) then .bad 12
    else if wide && d % 2 == 1 then .illegal
    else if st.mismatch then .bad 12
    else
      match st.results with
      | [] => .wait
      | g :: rest =>
        if g.base ≠ (x.ph.rs x.f.b).toNat then .bad 12
        else
          let put := fun (ph : Phrase) (k : Nat) (f : Int → BitVec 32) =>
            ph.wv k (mergeLanes ph.laneMask (ph.rv k) fun l => f (g.vals.getD l 0))
          let ph := put x.ph d fun v => BitVec.ofInt 32 v
          let ph := if wide then put ph (d + 1) fun v => BitVec.ofInt 32 (v / 2 ^ 32) else ph
          .doneFl (x.s.setFold { st with results := rest }) ph
            ((if g.sat then vfSat else 0) ||| (if Group.invalid g then vfInvalid else 0))

/-- FRECV. -/
def execFrecv (t p : Nat) (f : Fields) (s : State) : Host.Outcome State Fault Refusal :=
  issue 0x91 { d := true, b := true, imm := 0x3FF } t p f frecvRes s

/-- A fold group or an E that arrives over link n (R380-R382): taken at the leaf, or the root, that names the link; else
discarded with GLK_STAT.orphan. The routers between a leaf's rim router and its parent forward the group (R339). -/
def State.foldArrive (s : State) (n : Nat) (b : LinkBody) : State :=
  let orphan := s.modLink n fun k => { k with orphan := true }
  match b with
  | .foldGroup slot pass g =>
    match s.foldRec slot with
    | some r =>
      match r.indexOf (linkNode n) with
      | some i =>
        if i = r.root || !(r.children i).isEmpty then orphan
        else
          let x := s.foldSt r
          let f : FGroup := { g := g, tile := 0, slot := 0, pc := 0, hi := 0, stamp := 0 }
          let parent := (r.nodes.getD i { node := 0, parent := 0xFFFF }).parent
          (s.setFold { x with nodes := x.nodes.modify i (FoldNode.send pass f) }).satSeen g.sat
            (s.edgePath (linkNode n) (r.node parent))
      | none => orphan
    | none => orphan
  | .foldExp slot base exps =>
    match s.foldRec slot with
    | some r =>
      if r.node r.root = linkNode n then
        let x := s.foldSt r
        s.setFold { x with exps := x.exps ++ [plainGroup base exps] }
      else orphan
    | none => orphan
  | _ => s

end Sys2Proof.Machine
end

