-- ==== Sys2Proof/Machine/Deliver.lean ====
section
/-! DEFINITION. Messages that a link delivers here (R367, R374, R379-R382, R441, R448). -/
namespace Sys2Proof.Machine

/-- The clause that a message concerns: the one a request names, or that of a fold's slot. -/
def State.msgClause (s : State) (m : Msg) : Option Nat :=
  match m.body with
  | .foldGroup slot _ _ => (s.foldRec slot).map (·.clause)
  | .foldExp slot _ _ => (s.foldRec slot).map (·.clause)
  | b => reqClause b

/-- A message received on link n: counted, recorded where it ends here, and passed on to what it is for; what VC1 and VC3
carry besides link bring-up has no effect that the manual gives. -/
def State.takeMsg (s : State) (n : Nat) (m : Msg) : State :=
  let s := if m.vc = 3 then s else s.modLink n fun k => { k with rxSeq := k.rxSeq + 1 }
  if m.dst ≠ s.devId then s.modLink n fun k => { k with transit := k.transit ++ [m] }
  else
    let s := s.recordMsg true n m.vc (s.link n).rxSeq.toNat m.wire
    if m.resp then { s with resps := s.resps ++ [m] }
    else if asksAccess m.body then s.modLink n fun k => { k with rxq := k.rxq ++ [m] }
    else s.foldArrive n m.body

/-- Whether a message waits at its link: it concerns the clause of a REPLAY, or stands behind one that does (R448). -/
def State.mustWait (s : State) (n : Nat) (m : Msg) : Bool :=
  ((s.link n).waiting.any fun w => w.vc == m.vc && w.resp == m.resp) ||
    (decide (m.dst = s.devId) && s.replaying (s.msgClause m))

/-- A message that a link delivers. -/
def State.deliver (s : State) (n : Nat) (m : Msg) : State :=
  if s.mustWait n m then s.modLink n fun k => { k with waiting := k.waiting ++ [m] } else s.takeMsg n m

/-- What waited at a link is received in its order, and the frame buffers it held are drained. -/
def State.takeWaiting (s : State) (n : Nat) : State :=
  let l := (s.link n).waiting
  let s := l.foldl (fun s m => s.takeMsg n m) (s.modLink n fun k => { k with waiting := [] })
  s.modLink n fun k => (l.map (·.buf)).eraseDups.foldl (fun k b => k.drained b) k

/-- A REPLAY over: what waited at the links is received in its order. -/
def State.replayOver (s : State) : State := (List.range 32).foldl State.takeWaiting { s with replay := none }

end Sys2Proof.Machine
end

