-- ==== Sys2Proof/Machine/Hash.lean ====
section
/-! DEFINITION. The algorithms the manual names by their standards: SHAKE256 of FIPS 202, AES-256 in GCM of SP 800-38D
(log entry 12, PRESUMED from those standards), and the plait bus's CRC-8 (R517). -/
namespace Sys2Proof.Machine

/-! ## SHAKE256 -/

/-- The round constants of Keccak-f[1600]. -/
def keccakRC : List Nat :=
  [0x1, 0x8082, 0x800000000000808a, 0x8000000080008000, 0x808b, 0x80000001, 0x8000000080008081, 0x8000000000008009] ++
  [0x8a, 0x88, 0x80008009, 0x8000000a, 0x8000808b, 0x800000000000008b, 0x8000000000008089, 0x8000000000008003] ++
  [0x8000000000008002, 0x8000000000000080, 0x800a, 0x800000008000000a, 0x8000000080008081, 0x8000000000008080, 0x80000001, 0x8000000080008008]

/-- The rotation of lane x + 5y. -/
def keccakRot : List Nat :=
  [0, 1, 62, 28, 27, 36, 44, 6, 55, 20, 3, 10, 43, 25, 39, 41, 45, 15, 21, 8, 18, 2, 61, 56, 14]

/-- A 64-bit rotation to the left. -/
def rotl64 (v n : Nat) : Nat := (v <<< n) % 2 ^ 64 ||| v >>> (64 - n)

/-- One round of the permutation. -/
def keccakRound (a : List Nat) (rc : Nat) : List Nat :=
  let c := tab 5 fun x => a.getD x 0 ^^^ a.getD (x + 5) 0 ^^^ a.getD (x + 10) 0 ^^^ a.getD (x + 15) 0 ^^^ a.getD (x + 20) 0
  let d := tab 5 fun x => c.getD ((x + 4) % 5) 0 ^^^ rotl64 (c.getD ((x + 1) % 5) 0) 1
  let b := tab 25 fun j =>
    let i := (j % 5 + 3 * (j / 5)) % 5 + 5 * (j % 5)
    rotl64 (a.getD i 0 ^^^ d.getD (i % 5) 0) (keccakRot.getD i 0)
  let e := tab 25 fun j =>
    let r := 5 * (j / 5)
    b.getD j 0 ^^^ ((b.getD (r + (j + 1) % 5) 0 ^^^ (2 ^ 64 - 1)) &&& b.getD (r + (j + 2) % 5) 0)
  e.set 0 (e.getD 0 0 ^^^ rc)

/-- Keccak-f[1600] on 25 lanes. -/
def keccakF (a : List Nat) : List Nat := keccakRC.foldl keccakRound a

/-- The message padded for SHAKE256: 0x1F, zeros, 0x80, a multiple of 136 bytes. -/
def shakePad (m : List Byte) : List Byte :=
  let n := 136 - m.length % 136
  if n = 1 then m ++ [0x9F] else m ++ [0x1F] ++ zeros (n - 2) ++ [0x80]

/-- The lanes after absorbing a padded message, block by block. -/
def shakeAbsorb (blocks : List (List Byte)) : List Nat :=
  blocks.foldl (fun a blk => keccakF (tab 25 fun i => if i < 17 then a.getD i 0 ^^^ leAt blk (8 * i) 8 else a.getD i 0))
    (List.replicate 25 0)

/-- Squeezed blocks of 136 bytes. -/
def shakeSqueeze : Nat → List Nat → List Byte
  | 0, _ => []
  | n + 1, a => ((a.take 17).flatMap fun v => leBytes 8 v) ++ shakeSqueeze n (keccakF a)

/-- SHAKE256: n bytes of output. -/
def shake256 (n : Nat) (m : List Byte) : List Byte :=
  (shakeSqueeze ((n + 135) / 136) (shakeAbsorb (chunks 136 (shakePad m)))).take n

/-! ## AES-256-GCM -/

/-- The S-box of AES. -/
def aesSbox : List Nat :=
  [99, 124, 119, 123, 242, 107, 111, 197, 48, 1, 103, 43, 254, 215, 171, 118, 202, 130, 201, 125, 250, 89, 71, 240, 173, 212, 162, 175, 156, 164, 114, 192] ++
  [183, 253, 147, 38, 54, 63, 247, 204, 52, 165, 229, 241, 113, 216, 49, 21, 4, 199, 35, 195, 24, 150, 5, 154, 7, 18, 128, 226, 235, 39, 178, 117] ++
  [9, 131, 44, 26, 27, 110, 90, 160, 82, 59, 214, 179, 41, 227, 47, 132, 83, 209, 0, 237, 32, 252, 177, 91, 106, 203, 190, 57, 74, 76, 88, 207] ++
  [208, 239, 170, 251, 67, 77, 51, 133, 69, 249, 2, 127, 80, 60, 159, 168, 81, 163, 64, 143, 146, 157, 56, 245, 188, 182, 218, 33, 16, 255, 243, 210] ++
  [205, 12, 19, 236, 95, 151, 68, 23, 196, 167, 126, 61, 100, 93, 25, 115, 96, 129, 79, 220, 34, 42, 144, 136, 70, 238, 184, 20, 222, 94, 11, 219] ++
  [224, 50, 58, 10, 73, 6, 36, 92, 194, 211, 172, 98, 145, 149, 228, 121, 231, 200, 55, 109, 141, 213, 78, 169, 108, 86, 244, 234, 101, 122, 174, 8] ++
  [186, 120, 37, 46, 28, 166, 180, 198, 232, 221, 116, 31, 75, 189, 139, 138, 112, 62, 181, 102, 72, 3, 246, 14, 97, 53, 87, 185, 134, 193, 29, 158] ++
  [225, 248, 152, 17, 105, 217, 142, 148, 155, 30, 135, 233, 206, 85, 40, 223, 140, 161, 137, 13, 191, 230, 66, 104, 65, 153, 45, 15, 176, 84, 187, 22]

/-- The S-box on a byte. -/
def subByte (b : Nat) : Nat := aesSbox.getD b 0

/-- Multiplication by x in the field of AES. -/
def xtime (b : Nat) : Nat := if b < 128 then 2 * b else (2 * b) % 256 ^^^ 0x1B

/-- Next four words of the key schedule from the last eight; words are lists of 4 bytes. -/
def aesExpand : Nat → Nat → List (List Nat) → List (List Nat)
  | 0, _, w => w
  | n + 1, rcon, w =>
    let i := w.length
    let t := w.getD (i - 1) []
    let p := w.getD (i - 8) []
    let u := if i % 8 = 0 then
        [subByte (t.getD 1 0) ^^^ rcon, subByte (t.getD 2 0), subByte (t.getD 3 0), subByte (t.getD 0 0)]
      else if i % 8 = 4 then t.map subByte else t
    aesExpand n (if i % 8 = 0 then xtime rcon else rcon) (w ++ [List.zipWith (· ^^^ ·) p u])

/-- The 60 words of the AES-256 key schedule. -/
def aesKey (k : List Byte) : List (List Nat) :=
  aesExpand 52 1 (tab 8 fun i => tab 4 fun j => byteAt k (4 * i + j))

/-- The state with the round key r added. -/
def aesAddKey (w : List (List Nat)) (r : Nat) (s : List Nat) : List Nat :=
  tab 16 fun i => s.getD i 0 ^^^ (w.getD (4 * r + i / 4) []).getD (i % 4) 0

/-- SubBytes and ShiftRows. -/
def aesSubShift (s : List Nat) : List Nat := tab 16 fun i => subByte (s.getD ((i + 4 * (i % 4)) % 16) 0)

/-- MixColumns. -/
def aesMix (s : List Nat) : List Nat :=
  tab 16 fun i =>
    let c := 4 * (i / 4)
    let g := fun k => s.getD (c + (i + k) % 4) 0
    xtime (g 0) ^^^ xtime (g 1) ^^^ g 1 ^^^ g 2 ^^^ g 3

/-- One AES-256 block under an expanded key. -/
def aesBlock (w : List (List Nat)) (blk : List Nat) : List Nat :=
  let s := (List.range 13).foldl (fun s r => aesAddKey w (r + 1) (aesMix (aesSubShift s))) (aesAddKey w 0 blk)
  aesAddKey w 14 (aesSubShift s)

/-- A block as a 128-bit number, first byte highest. -/
def blkNat (l : List Nat) : Nat := l.foldl (fun a b => 256 * a + b) 0

/-- A number as a block of 16 bytes, first byte highest. -/
def natBlk (v : Nat) : List Nat := tab 16 fun i => v / 256 ^ (15 - i) % 256

/-- Multiplication in the field of GHASH. -/
def gfMul (x y : Nat) : Nat :=
  ((List.range 128).foldl (fun (zv : Nat × Nat) i =>
    (if bitAt x (127 - i) then zv.1 ^^^ zv.2 else zv.1,
     if zv.2 % 2 = 1 then (zv.2 / 2) ^^^ (0xE1 <<< 120) else zv.2 / 2)) (0, y)).1

/-- GHASH of blocks given as bytes padded to 16. -/
def ghash (h : Nat) (data : List Byte) : Nat :=
  (chunks 16 data).foldl (fun y b => gfMul (y ^^^ blkNat ((fitTo 16 b).map BitVec.toNat)) h) 0

/-- Zero bytes that fill to a multiple of 16. -/
def pad16 (l : List Byte) : List Byte := l ++ zeros (roundUp l.length 16 - l.length)

/-- The key stream of n bytes from a starting counter block. -/
def gcmStream (w : List (List Nat)) (nonce : List Byte) (ctr n : Nat) : List Byte :=
  ((tab ((n + 15) / 16) fun i =>
    (aesBlock w (nonce.map BitVec.toNat ++ (beBytes 4 (ctr + i)).map BitVec.toNat)).map (BitVec.ofNat 8)).flatten).take n

/-- The bytes combined with a key stream. -/
def gcmCrypt (k nonce data : List Byte) : List Byte :=
  List.zipWith (· ^^^ ·) data (gcmStream (aesKey k) nonce 2 data.length)

/-- The tag of a ciphertext and its associated data. -/
def gcmTag (k nonce aad cipher : List Byte) : List Byte :=
  let w := aesKey k
  let h := blkNat (aesBlock w (List.replicate 16 0))
  let s := ghash h (pad16 aad ++ pad16 cipher ++ beBytes 8 (8 * aad.length) ++ beBytes 8 (8 * cipher.length))
  List.zipWith (· ^^^ ·) ((natBlk s).map (BitVec.ofNat 8)) (gcmStream w nonce 1 16)

/-- AES-256-GCM sealing with a 12-byte nonce: ciphertext and tag. -/
def gcmSeal (k nonce aad plain : List Byte) : List Byte × List Byte :=
  let c := gcmCrypt k nonce plain
  (c, gcmTag k nonce aad c)

/-- AES-256-GCM opening: the plaintext where the tag verifies. -/
def gcmOpen (k nonce aad cipher tag : List Byte) : Option (List Byte) :=
  if gcmTag k nonce aad cipher = tag then some (gcmCrypt k nonce cipher) else none

/-! ## CRC-8 -/

/-- CRC-8 with polynomial x^8 + x^2 + x + 1 from 0, most significant bit first (R517). -/
def crc8 (l : List Byte) : Byte :=
  l.foldl (fun c b => (List.range 8).foldl (fun c _ => if c.getLsbD 7 then (c <<< 1) ^^^ 7 else c <<< 1) (c ^^^ b)) 0

end Sys2Proof.Machine
end

