-- ==== Sys2Proof/Machine/LinkState.lean ====
section
/-! DEFINITION. The states of a link: down, holding, off (R365, R370-R372, R494). -/
namespace Sys2Proof.Machine

/-- The frame buffers of a receiver by channel, as credit at the start (R366). -/
def fullCredit : List Nat := [256, 256, 256, 256, 32, 32, 32, 32, 32]

/-- A link that starts anew from training: keyless, its set-up and its open group gone; what no ack covers stays in its
replay buffer (R356, R363, R372). -/
def Link.untrain (k : Link) : Link :=
  { k with
    protectNow := k.protect, laneBad := 0, refuse := 0, epoch := 0, txEpoch := 0, rxEpoch := 0, keys := none, prevKeys := none, txGroup := 0,
    rxGroup := 0, group := [], resend := [], nakFsn := none, nakCount := 0, sendNak := none, wake := false,
    setup := none, trained := false, met := false }

/-- A link goes down and retrains: a keyed one holds (R372). -/
def Link.goesDown (k : Link) : Link :=
  { k.untrain with
    state := if k.state == .keyed || k.state == .holding then .holding
             else if k.state == .failed then .failed else .training
    retrains := satAdd 16 k.retrains 1 }

/-- A link whose transmitters are off (R370, R371); frames without an ack stay, as R372 lets nothing but a reset discard
them. -/
def Link.switchOff (k : Link) : Link := { k.untrain with state := .off, stopping := false }

/-- A link that carries VC0, VC1 and VC2: keyed, with role 1 or 2 at both ends (R370). -/
def State.roleOf (s : State) (n : Nat) : Nat := ((s.weave.installed.bind (·.links)).map fun l => l.roles.getD n 0).getD 0

/-- Whether link n carries data. -/
def State.linkData (s : State) (n : Nat) : Bool :=
  (s.link n).state == .keyed && (s.roleOf n == 1 || s.roleOf n == 2) &&
    ((s.link n).peerRole == 1 || (s.link n).peerRole == 2)

/-- A link told to switch off: it stops sending and waits for its acks (R371). -/
def Link.stop (k : Link) : Link := if k.state == .off then k else { k with stopping := true }

/-- Whether a LINKS section turns a link's transmitters off (R370). -/
def State.linkUnused (s : State) (n : Nat) : Bool :=
  (s.weave.installed.bind (·.links)).isSome && s.roleOf n == 0

end Sys2Proof.Machine
end

