-- ==== Sys2Proof/Machine/SecOps.lean ====
section
/-! DEFINITION. The key store and the identity key (R449-R458). -/
namespace Sys2Proof.Machine

/-- Entry k set with its bytes and the digest reported for it. -/
def State.setKey (s : State) (k : Nat) (key digest : List Byte) : State :=
  { s with sec := { s.sec with
      store := s.sec.store.filter (fun e => e.k != k) ++ [{ k := k, key := key, digest := digest, torn := false }] } }

/-- The first 16 bytes of SHAKE256 over a key. -/
def keyDigest (key : List Byte) : List Byte := shake256 16 key

/-- A key ID: the first 32 bytes of SHAKE256 over an encoded public key (R451). -/
def keyId (pub : List Byte) : List Byte := shake256 32 pub

/-- The layout of a certificate (R452). -/
def certBytes (kind : Byte) (serial issuer pub : List Byte) (issued : BitVec 64) (stepping : Byte) (grade : Nat)
    (sig : List Byte) : List Byte :=
  [0x4E, 0x43, 0x54, 0x31, 1, 0, kind, 0] ++ fitTo 16 serial ++ fitTo 32 issuer ++ keyId (fitTo 1793 pub) ++
    leBytes 8 issued.toNat ++ [stepping] ++ leBytes 1 grade ++ zeros 6 ++ fitTo 1793 pub ++ zeros 7 ++ fitTo 1280 sig

/-- The CA certificate in OTP, issued by the root (R449, R452, R453). -/
def caCert : List Byte :=
  certBytes 2 Config.caSerial Config.rootKeyId Config.caKey Config.caIssued 0 0 Config.caSig

/-- The device certificate in OTP, issued by the CA (R449, R452, R453). -/
def State.deviceCert (s : State) : List Byte :=
  certBytes 3 Config.serial (keyId (fitTo 1793 Config.caKey)) Config.deviceKey Config.deviceIssued 0xB0 s.fuse.grade
    Config.deviceSig

/-- Whether the key pair of the seed has the public key of the device certificate (R450). -/
def identityMatches : Bool := fitTo 1793 (Config.falconPublic Config.identitySeed) == fitTo 1793 Config.deviceKey

/-- The identity key ID, from the certificate's subject key, where entry 0 is present; else 32 bytes 0. -/
def State.idKeyId (s : State) : List Byte :=
  if s.hasKey 0 then keyId (fitTo 1793 Config.deviceKey) else zeros 32

/-- A signature by the identity key (R436); each signing draws its own randomness. -/
def State.sign (s : State) (msg : List Byte) : List Byte × State :=
  (fitTo 1280 (Config.falconSign Config.identitySeed s.free msg), { s with free := s.free + 1 })

/-- The staged weave discarded where it carries PGKEYS (R69, R470). -/
def WeaveSt.dropKeyed (w : WeaveSt) : WeaveSt :=
  match w.staged with
  | some x => if x.pgkeys.isEmpty then w else { w with staged := none }
  | none => w

/-- The session ended (R458, R470). -/
def State.endSession (s : State) : State :=
  { s with
    sec := { s.sec with session := false, ownerId := [], store := s.sec.store.filter fun e => !(1 ≤ e.k && e.k ≤ 3) }
    weave := s.weave.dropKeyed }

/-- Whether an entry is one of those erased. -/
def KeyEntry.hit (p : Nat → Bool) (e : KeyEntry) : Bool := p e.k

/-- Entries erased, with the consequences of R458: the session ends when one of entries 1 to 3 goes, a keyed link whose
entry goes retrains. -/
def State.eraseKeys (s : State) (p : Nat → Bool) : State :=
  let gone := fun k => p k && s.hasKey k
  let s' := { s with
    sec := { s.sec with store := s.sec.store.filter fun e => !p e.k }
    links := s.links.mapIdx fun n k =>
      if gone (20 + n) then
        if k.state == .keyed then k.goesDown else { k with keys := none }
      else k }
  if gone 1 || gone 2 || gone 3 then s'.endSession else s'

/-- Entry k before a use: erased, with what follows, and counted where its tag fails (R456). -/
def State.checkEntry (s : State) (k : Nat) : State :=
  if s.hasKey k && !s.keyPasses k then
    let s := (s.disagree (.entry k)).eraseKeys (· == k)
    { s with sec := { s.sec with ksBad := satAdd 8 s.sec.ksBad 1 } }
  else s

/-- Entries struck by a retention fault on VSTBY (R456, R504). -/
def State.tear (s : State) (l : List Nat) : State :=
  { s with sec := { s.sec with store := s.sec.store.map fun (e : KeyEntry) => { e with torn := e.torn || l.contains e.k } } }

/-- Session-key erasure: entries 1 to 51 (R457). -/
def State.eraseSession (s : State) : State := s.eraseKeys fun k => 1 ≤ k

/-- Erasure of all keys: also entry 0 and the seed in OTP (R457). -/
def State.eraseAll (s : State) : State :=
  let s := s.eraseKeys fun _ => true
  { s with sec := { s.sec with idErased := true } }

end Sys2Proof.Machine
end

