-- ==== Sys2Proof/Machine/Gloss.lean ====
section
/-! DEFINITION. The gloss (R429-R438): the request of a clause, the digests, the record. -/
namespace Sys2Proof.Machine

/-- SEC_GLOSS_STAT of a clause after an attempt: status, offset of the first offending field (R429). -/
def State.glossStat (s : State) (c status off : Nat) : State :=
  { s with gloss := { s.gloss with status := s.gloss.status.set c status, offset := s.gloss.offset.set c off } }

/-- The key slots granted to a clause that hold a key (R434). -/
def State.grantedSlots (s : State) (c : Nat) : List (Nat × List Byte) :=
  (List.range 16).filterMap fun k => (s.grantedKey c k).map fun key => (k, key)

/-- Bytes of the gloss input. -/
def glossInputLen (entries slots seeds : Nat) : Nat := 208 + 80 * entries + 32 * slots + 8 * seeds

/-- Bytes of the gloss record (R435). -/
def glossRecordLen (sign : Bool) (inputLen : Nat) : Nat := 128 + roundUp inputLen 64 + if sign then 1280 else 0

/-- The first offending field of a request's fixed part (R430, R431). -/
def State.glossBadHead (s : State) (c : Nat) (h : List Byte) : Option Nat :=
  let n := byteAt h 7
  let m := byteAt h 8
  let rec_ := leAt h 0x10 8
  let need := glossRecordLen (bitAt (byteAt h 6) 0) (glossInputLen n (s.grantedSlots c).length m)
  if slice h 0 4 ≠ [0x4E, 0x47, 0x51, 0x31] then some 0
  else if leAt h 4 2 ≠ 1 then some 4
  else if 1 < byteAt h 6 then some 6
  else if 64 < n then some 7
  else if 16 < m then some 8
  else if !allZero (slice h 9 7) then some 9
  else if rec_ % 64 ≠ 0 || !(s.regions.any fun r => (r.kind == 0 || r.kind == 2) && r.grants c && r.holds rec_ need) then
    some 0x10
  else if leAt h 0x18 4 < need then some 0x18
  else if !allZero (slice h 0x1C 4) then some 0x1C
  else none

/-- The first offending field among a request's entries. -/
def State.glossBadEntry (s : State) (c : Nat) (l : List Byte) : Option Nat :=
  let bad := (List.range (l.length / 8)).find? fun i =>
    !(s.regions.any fun r => r.id == leAt l (8 * i) 2 && r.grants c) || byteAt l (8 * i + 2) == 0 ||
      3 < byteAt l (8 * i + 2) || !allZero (slice l (8 * i + 3) 5)
  bad.map fun i =>
    0x20 + 8 * i +
      (if !(s.regions.any fun r => r.id == leAt l (8 * i) 2 && r.grants c) then 0
       else if byteAt l (8 * i + 2) == 0 || 3 < byteAt l (8 * i + 2) then 2 else 3)

/-- A region by its ID. -/
def State.regionById (s : State) (id : Nat) : Option Region := s.regions.find? fun r => r.id == id

/-- The digest of a region (R432): a read-only region's is kept and used again (R433). The lowest struck line that the
hashing met is passed on. -/
def State.regionDigest (s : State) (id : Nat) : List Byte × State × Option Nat :=
  match s.regionById id with
  | none => (zeros 64, s, none)
  | some r =>
    match s.gloss.cache.find? fun e => e.1 == id with
    | some e => (e.2, s, none)
    | none =>
      let (l, s, struck) := s.hbmRead r.base r.len
      let d := shake256 64 l
      let s := if r.kind = 1 && struck.isNone then
          { s with gloss := { s.gloss with cache := s.gloss.cache ++ [(id, d)] } }
        else s
      (d, s, struck)

/-- The digests of the entries of given roles, in request order. -/
def State.glossDigests (s : State) (c : Nat) (role : Nat → Bool) (es : List (Nat × Nat)) (old : List (Option (List Byte))) :
    List (Option (List Byte)) × State :=
  es.zipIdx.foldl (fun ds e =>
    if role e.1.2 then
      let (d, s, struck) := ds.2.regionDigest e.1.1
      (ds.1 ++ [some d], if struck.isSome then s.noteRunUncorr c struck else s)
    else (ds.1 ++ [old.getD e.2 none], ds.2)) ([], s)

/-- Whether n bytes at a lie in HBM below the part that is Jaset's (R390). -/
def userHbm (a n : Nat) : Bool := decide (a + n ≤ hbmUserEnd)

/-- The request of a clause read and checked at the start of a LAUNCH; on a refusal the status and offset are set
(R431). -/
def State.glossRequest (s : State) (c : Nat) : Option GlossRun × State :=
  let a := (s.gloss.req.getD c 0).toNat
  if a = 0 then (none, s)
  else if !userHbm a 0x20 then (none, s.glossStat c stCmdArg 0)
  else if s.hbmAsleep a 0x20 then (none, s.noteAsleep.glossStat c stHalfAsleep 0)
  else
    let (h, s, x) := s.hbmRead a 0x20
    if x.isSome then (none, s.glossStat c stUncorr 0)
    else
      match s.glossBadHead c h with
      | some o => (none, s.glossStat c stCmdArg o)
      | none =>
        let n := byteAt h 7
        let m := byteAt h 8
        if !userHbm a (0x20 + 8 * (n + m)) then (none, s.glossStat c stCmdArg 7)
        else
          let (l, s, x) := s.hbmRead (a + 0x20) (8 * (n + m))
          if x.isSome then (none, s.glossStat c stUncorr 0)
          else
            match s.glossBadEntry c (l.take (8 * n)) with
            | some o => (none, s.glossStat c stCmdArg o)
            | none =>
              (some { sign := bitAt (byteAt h 6) 0, record := leAt h 0x10 8,
                      entries := tab n fun i => (leAt l (8 * i) 2, byteAt l (8 * i + 2)),
                      seeds := tab m fun i => slice l (8 * (n + i)) 8, digests := [] }, s)

/-- The gloss of a run at its start: role 1 and 2 digests taken (R432). -/
def State.glossStart (s : State) (c : Nat) : Option GlossRun × State :=
  match s.glossRequest c with
  | (some g, s) =>
    let (d, s) := s.glossDigests c (fun r => r == 1 || r == 2) g.entries []
    (some { g with digests := d }, s)
  | (none, s) => (none, s)

/-- The gloss input (R434). -/
def State.glossInput (s : State) (c : Nat) (args : List (BitVec 64)) (g : GlossRun) (poisoned : Bool) : List Byte :=
  let slots := s.grantedSlots c
  [0x4E, 0x47, 0x4C, 0x31, BitVec.ofNat 8 s.policy.det, if poisoned then 1 else 0, BitVec.ofNat 8 c,
    BitVec.ofNat 8 g.entries.length, BitVec.ofNat 8 slots.length, BitVec.ofNat 8 g.seeds.length] ++ zeros 6 ++
    s.weave.digest ++ (args.flatMap fun a => leBytes 8 a.toNat) ++
    (g.entries.zipIdx.flatMap fun e =>
      leBytes 2 e.1.1 ++ leBytes 1 e.1.2 ++ zeros 5 ++ leBytes 8 (((s.regionById e.1.1).map (·.len)).getD 0) ++
        (g.digests.getD e.2 none).getD (zeros 64)) ++
    (slots.flatMap fun k => leBytes 1 k.1 ++ zeros 15 ++ keyDigest k.2) ++ g.seeds.flatten

/-- The head of a gloss record (R435). -/
def State.glossHead (s : State) (r : Run) (status : Nat) (signed formed : Bool) (inputLen : Nat) (gloss : List Byte) :
    List Byte :=
  let flags := b2n signed + 2 * b2n (formed && status == stUncorr) + 4 * s.policy.det
  [0x4E, 0x47, 0x52, 0x31, BitVec.ofNat 8 status, BitVec.ofNat 8 flags, 0, 0] ++ leBytes 4 inputLen ++
    leBytes 2 (if signed then 1280 else 0) ++ zeros 2 ++ leBytes 8 r.tStart ++ leBytes 8 s.timer ++ s.idKeyId ++ gloss

/-- The record written, and what SEC_GLOSS_STAT then reads. -/
def State.glossWrite (s : State) (c a : Nat) (l : List Byte) : State :=
  if s.hbmAsleep a l.length then s.noteAsleep.glossStat c stHalfAsleep 0
  else
    let (s, struck) := s.hbmWrite a l
    let s := s.glossStat c (if struck.isSome then stUncorr else stOK) 0
    { s with gloss := { s.gloss with count := s.gloss.count.modify c fun n => satAdd 32 n 1 } }

/-- The gloss record of a finished run (R436, R437). -/
def State.glossEnd (s : State) (c : Nat) (r : Run) (status : Nat) : State :=
  match r.gloss with
  | none => s
  | some g =>
    if status = stOK || status = stSat || status = stUncorr then
      let inp := s.glossInput c r.args g (status == stUncorr)
      let signed := g.sign && s.hasKey 0
      let body := s.glossHead r status signed true inp.length (shake256 64 inp) ++ fitTo (roundUp inp.length 64) inp
      if signed then
        let (sig, s) := s.sign body
        s.glossWrite c g.record (body ++ sig)
      else s.glossWrite c g.record body
    else s.glossWrite c g.record (s.glossHead r status false false 0 (zeros 64))

/-- A host write to bytes of a read-only region discards its kept digest (R433). -/
def State.dropDigests (s : State) (a n : Nat) : State :=
  { s with gloss := { s.gloss with cache := s.gloss.cache.filter fun e =>
      !((s.regionById e.1).map fun r => decide (a < r.base + r.len) && decide (r.base < a + n)).getD true } }

end Sys2Proof.Machine
end

