-- ==== Sys2Proof/Machine/HopperOps.lean ====
section
/-! DEFINITION. The hoppers: which serve, how consumers draw from them, when they fail (R263, R267-R274). -/
namespace Sys2Proof.Machine

/-- The hopper of a half. -/
def State.hop (s : State) (east : Bool) : Hopper := if east then s.hopE else s.hopW

/-- The hopper of a half changed. -/
def State.modHop (s : State) (east : Bool) (f : Hopper → Hopper) : State :=
  if east then { s with hopE := f s.hopE } else { s with hopW := f s.hopW }

/-- Whether a hopper serves: its half is powered, ready is set, ent_fail is clear. -/
def State.serves (s : State) (east : Bool) : Bool := s.halfUp east && (s.hop east).ready && !(s.hop east).entFail

/-- Healthy cells of a hopper. -/
def Hopper.healthy (h : Hopper) : Nat := h.cells.countP fun c => c.st == .healthy

/-- The hopper the next unit comes from: the serving one that holds more, West on a tie (R271). -/
def State.nextHop (s : State) : Option Bool :=
  if s.serves false && (!s.serves true || decide (s.hopE.units.length ≤ s.hopW.units.length)) then
    if s.hopW.units.isEmpty then none else some false
  else if s.serves true then if s.hopE.units.isEmpty then none else some true
  else none

/-- One unit taken. -/
def State.takeUnit (s : State) : Option (List Byte × State) :=
  s.nextHop.map fun e =>
    ((s.hop e).units.headD [], s.modHop e fun h => { h with units := h.units.drop 1, deliv := h.deliv + 1 })

/-- What an internal request for n bytes comes to: no hopper serves, it waits for units, or it has its bytes (R271,
R274). -/
inductive Drawn where
  | noData
  | wait
  | ok (bytes : List Byte) (s : State)
  deriving DecidableEq, Repr

/-- Units taken one after the other. -/
def State.takeUnits : Nat → State → List Byte → Option (List Byte × State)
  | 0, s, l => some (l, s)
  | n + 1, s, l =>
    match s.takeUnit with
    | some (u, s) => State.takeUnits n s (l ++ u)
    | none => none

/-- An internal request for n bytes. -/
def State.draw (s : State) (n : Nat) : Drawn :=
  if !s.serves false && !s.serves true then .noData
  else
    match State.takeUnits ((n + 31) / 32) s [] with
    | some (l, s') => .ok (l.take n) s'
    | none => .wait

/-- Units that both hoppers hold together; a hopper without power holds none (R268). -/
def State.unitsHeld (s : State) : Nat := s.hopW.units.length + s.hopE.units.length

/-- The units withheld from ENTROPY_READ, of the West copy (R271). -/
def State.reserve (s : State) : Nat := min 1024 s.hopW.reserve.toNat

/-- Units gathered for an ENTROPY_READ, as many as the reserve leaves, n at the most. -/
def State.gather : Nat → State → List (List Byte) → List (List Byte) × State
  | 0, s, l => (l, s)
  | n + 1, s, l =>
    if s.unitsHeld ≤ s.reserve then (l, s)
    else
      match s.takeUnit with
      | some (u, s) => State.gather n s (l ++ [u])
      | none => (l, s)

/-! ## Internal requests that wait (R271, R274) -/

/-- The bytes a request needs: nonce and randomness of a session (R465), the debug nonce (R486), nonce and seeds of a link
set-up, the randomness of its answer (R359). -/
def DrawReq.size : DrawReq → Nat
  | .session _ _ => 64
  | .challenge => 32
  | .linkStart _ => 96
  | .linkAnswer .. => 32

/-- What a request is for, so that a later one for the same takes its place. -/
def DrawReq.key : DrawReq → Nat × Nat
  | .session id _ => (0, id)
  | .challenge => (1, 0)
  | .linkStart n => (2, n)
  | .linkAnswer n .. => (3, n)

/-- Whether a link's set-up still waits for its first message's bytes. -/
def KeySetup.unsent (x : KeySetup) : Bool := x.nonce.isEmpty

/-- Whether what a request is for still waits for it: a command that has completed and a set-up that has gone do not. -/
def State.drawLive (s : State) (r : DrawReq) : Bool :=
  match r with
  | .session id _ => (s.cmd id).any fun c => c.fin.isNone
  | .challenge => true
  | .linkStart n => (s.link n).setup.any KeySetup.unsent
  | .linkAnswer n .. => (s.link n).setup.any fun x => x.peerStep1.isNone

/-- The requests that wait, in order of request. -/
def State.liveDraws (s : State) : List DrawReq := s.draws.filter s.drawLive

/-- A new internal request: behind those that wait already. -/
def State.ask (s : State) (r : DrawReq) : Drawn :=
  if s.liveDraws.isEmpty then s.draw r.size
  else if !s.serves false && !s.serves true then .noData
  else .wait

/-- A request that waits for units, the last in order. -/
def State.await (s : State) (r : DrawReq) : State :=
  { s with draws := (s.liveDraws.filter fun x => x.key != r.key) ++ [r] }

/-- A request that gets NO_DATA (R274, R361, R486). -/
def State.failDraw (s : State) (r : DrawReq) : State :=
  match r with
  | .session id _ => s.finish id stNoData 0 0 0
  | .challenge => { s with sec := { s.sec with nonceValid := false, lastResult := 7 } }
  | .linkStart n => s.modLink n (Link.refuseSetup 6)
  | .linkAnswer n .. => s.modLink n (Link.refuseSetup 6)

/-- When the last serving hopper stops serving, the reads and the internal requests that wait get NO_DATA, and what a read
has gathered is lost (R273, R274). -/
def State.entropyLost (s : State) : State :=
  if s.serves false || s.serves true then s
  else
    let ids := (s.started.filter fun c => c.units.isSome && c.fin.isNone).map (·.id)
    let s := ids.foldl (fun s i => s.finish i stNoData 0 0 0) s
    s.liveDraws.foldl State.failDraw { s with draws := [] }

/-- ent_fail brought to the count of healthy cells, once no cell is in its first start-up test (R269). -/
def State.hopCheck (s : State) (east : Bool) : State :=
  let h := s.hop east
  let fail := decide (h.healthy < 8) && !h.cells.any fun c => c.st == .startup
  if fail && !h.entFail then
    (((s.modHop east fun h => { h with entFail := true, failSeen := true }).raise irqEntFail)).entropyLost
  else if !fail && h.entFail && decide (8 ≤ h.healthy) then
    s.modHop east fun h => { h with entFail := false, alarmed := false }
  else s

/-- A hopper that has lost its power: its units and pending blocks are gone, ready is clear (R268). -/
def Hopper.lose (h : Hopper) : Hopper :=
  { h with ready := false, units := [], capturing := none, cells := h.cells.map fun (k : NoiseCell) => { k with pend := none } }

/-- A unit offered to a hopper: dropped while it is full or has failed; ready sets at 128 units (R267-R269). -/
def Hopper.offer (u : List Byte) (h : Hopper) : Hopper :=
  if h.entFail || decide (2048 ≤ h.units.length) then h
  else
    let l := h.units ++ [u]
    { h with units := l, ready := h.ready || (decide (8 ≤ h.healthy) && decide (128 ≤ l.length)) }

end Sys2Proof.Machine
end

