-- ==== Sys2Proof/Machine/TksOps.lean ====
section
/-! DEFINITION. A token sampler's requests, and its disabling (R301-R306). -/
namespace Sys2Proof.Machine

/-! ## The pipeline (R303, R304) -/

/-- A logit that takes part: its value in units of 2^-149, an infinity beyond every finite one, and its index. -/
structure Logit where
  x : Int
  i : Nat
  deriving DecidableEq, Repr

/-- What stands for +∞. -/
def logitInf : Int := 2 ^ 400

/-- The value of an fp32 pattern in units of 2^-149; none for NaN. -/
def logitVal (b : Nat) : Option Int :=
  match Fp.decode .fp32 b with
  | .nan => none
  | .inf n => some (if n then -logitInf else logitInf)
  | .fin n m e => some (if n then -(m * 2 ^ (e + 149).toNat : Nat) else (m * 2 ^ (e + 149).toNat : Nat))

/-- Step 3: the weight of an entry at a distance d, at most 0, below the largest, for T = m * 2^e > 0. -/
def tksWeight (d : Int) (m : Nat) (e : Int) : Nat :=
  if d = 0 then 2 ^ 32
  else
    let q := max (-1024 * (fixOne : Int)) (d * 2 ^ 640 / (m * 2 ^ (e + 149).toNat : Nat))
    let (t, k) := expFix q
    ((Exact.ofFix t (k + 32)).round 0 none)

/-- The shortest prefix whose weights reach a sum. -/
def prefixTo (p : Nat) : Nat → List (Nat × Nat) → List (Nat × Nat)
  | _, [] => []
  | sum, x :: r => if p ≤ sum + x.2 then [x] else x :: prefixTo p (sum + x.2) r

/-- Step 6: ⌈p * S⌉ for a finite p; none where p makes no cut. -/
def topP (p : Nat) (sum : Nat) : Option Nat :=
  match Fp.decode .fp32 p with
  | .fin _ m e => if m = 0 || decide ((2 : Int) ^ 149 ≤ (m * 2 ^ (e + 149).toNat : Nat)) then none
                  else some ((m * sum * 2 ^ (e + 149).toNat + 2 ^ 149 - 1) / 2 ^ 149)
  | _ => none

/-- Step 7: the entry, in ascending index order, whose cumulative span contains r. -/
def spanHit : Nat → List (Nat × Nat) → Nat
  | _, [] => 0xFFFFFFFF
  | r, x :: l => if r < x.2 then x.1 else spanHit (r - x.2) l

/-- What a request comes to: status, token, kept, flags. -/
structure TksResult where
  status : Nat
  token : Nat
  kept : Nat
  flags : Nat
  deriving DecidableEq, Repr

/-- A request that selects nothing. -/
def tksNone (status flags : Nat) : TksResult := { status := status, token := 0xFFFFFFFF, kept := 0, flags := flags }

/-- Steps 3 to 7 for T = m * 2^e > 0 over the remaining entries, whose largest is top. -/
def tksSample (l : List Logit) (top : Int) (m : Nat) (e : Int) (k p u flags : Nat) : TksResult :=
  let w := fun (x : Logit) =>
    if top = logitInf then (if x.x = logitInf then 2 ^ 32 else 0)
    else if x.x = -logitInf then 0 else tksWeight (x.x - top) m e
  let ranked := l.mergeSort fun a b => decide (b.x < a.x) || (a.x == b.x && decide (a.i ≤ b.i))
  let kept := ((if k = 0 then ranked else ranked.take k).map fun x => (x.i, w x)).filter fun x => x.2 != 0
  let sum := kept.foldl (fun a x => a + x.2) 0
  let final := match topP p sum with
    | some t => prefixTo t 0 kept
    | none => kept
  let final' := final.mergeSort fun a b => a.1 ≤ b.1
  let sum' := final'.foldl (fun a x => a + x.2) 0
  { status := stOK, token := spanHit (u * sum' / 2 ^ 128) final', kept := final'.length,
    flags := flags + if (topP p sum).isSome then 8 else 0 }

/-- The pipeline over fp32 patterns. -/
def tksPipe (pats : List Nat) (t k p u : Nat) : TksResult :=
  let vals := pats.map logitVal
  let l : List Logit := vals.zipIdx.filterMap fun v => v.1.map fun x => { x := x, i := v.2 }
  let flags := b2n (vals.any (·.isNone)) + 2 * b2n (l.any fun x => x.x == logitInf)
  let top := l.foldl (fun a x => max a x.x) (-logitInf)
  if top = -logitInf then tksNone stNoData flags
  else
    match Fp.decode .fp32 t with
    | .fin _ m e =>
      if m = 0 then
        { status := stOK, token := ((l.find? fun x => x.x == top).map (·.i)).getD 0, kept := 1, flags := flags + 4 }
      else tksSample l top m e k p u flags
    | _ => tksNone stTksArg 0

/-! ## Requests (R301, R302) -/

/-- The sampler of a half. -/
def State.tks (s : State) (east : Bool) : Tks := if east then s.tksE else s.tksW

/-- The sampler of a half changed. -/
def State.modTks (s : State) (east : Bool) (f : Tks → Tks) : State :=
  if east then { s with tksE := f s.tksE } else { s with tksW := f s.tksW }

/-- Bytes of one entry. -/
def tksSize (d : List Byte) : Nat := if byteAt d 0 = 1 then 2 else 4

/-- The logits' address and bytes. -/
def tksLogits (d : List Byte) : Nat × Nat := (leAt d 8 8, leAt d 4 4 * tksSize d)

/-- Whether the bytes from a to e all lie in regions of a choice, found one after the other. -/
def regionsCover (l : List Region) : Nat → Nat → Nat → Bool
  | 0, a, e => decide (e ≤ a)
  | n + 1, a, e =>
    decide (e ≤ a) ||
      match l.find? fun r => r.holds a 1 with
      | some r => regionsCover l n (r.base + r.len) e
      | none => false

/-- Whether n bytes at a lie in the regions that a clause may access, for a result in those that are not read-only; the kind
of a region and the bounds between regions do not matter here (R302). -/
def State.tksReach (s : State) (c a n : Nat) (write : Bool) : Bool :=
  let l := s.regions.filter fun r => r.grants c && !(write && r.kind == 1)
  regionsCover l (l.length + 1) a (a + n)

/-- Whether a request's result address is valid (R302). -/
def State.tksResultOk (s : State) (c : Nat) (d : List Byte) : Bool := s.tksReach c (leAt d 0x30 8) 16 true

/-- Whether a number is negative, infinite or NaN, a negative zero excepted. -/
def badTemp (b : Nat) : Bool :=
  match Fp.decode .fp32 b with
  | .fin n m _ => n && m != 0
  | _ => true

/-- Whether p is negative or NaN. -/
def badTopP (b : Nat) : Bool :=
  match Fp.decode .fp32 b with
  | .fin n m _ => n && m != 0
  | .inf n => n
  | .nan => true

/-- Whether T is 0. -/
def zeroTemp (b : Nat) : Bool :=
  match Fp.decode .fp32 b with
  | .fin _ m _ => m == 0
  | _ => false

/-- Whether a request completes with TKS_ARG. -/
def State.tksBad (s : State) (c : Nat) (d : List Byte) : Bool :=
  let (a, n) := tksLogits d
  !allZero (slice d 2 2) || !allZero (slice d 0x2C 4) || !allZero (slice d 0x38 8) || decide (1 < byteAt d 0) ||
    decide (1048576 < leAt d 4 4) || (n != 0 && !s.tksReach c a n false) || !s.tksResultOk c d ||
    badTemp (leAt d 0x20 4) || decide (4096 < leAt d 0x24 4) || badTopP (leAt d 0x28 4) ||
    (!zeroTemp (leAt d 0x20 4) && (s.pgKey c (byteAt d 1)).isNone)

/-- The u128 of a block, its last word highest. -/
def blockNat (w : List Nat) : Nat := (w.reverse).foldl (fun a x => a * 2 ^ 32 + x) 0

/-- A request that passes R302: its logits read, its result computed. -/
def State.tksRun (s : State) (c : Nat) (d : List Byte) : TksResult × State :=
  let (a, n) := tksLogits d
  if n = 0 then (tksNone stNoData 0, s)
  else if s.hbmAsleep a n then (tksNone stHalfAsleep 0, s.noteAsleep)
  else
    let (l, s, struck) := s.hbmRead a n
    if struck.isSome then (tksNone stUncorr 0, s)
    else
      let z := tksSize d
      let pats := tab (leAt d 4 4) fun i => if z = 2 then leAt l (2 * i) 2 * 2 ^ 16 else leAt l (4 * i) 4
      let u := ((s.pgKey c (byteAt d 1)).map fun k => blockNat (pgBlock k (leAt d 0x10 8) (leAt d 0x18 8))).getD 0
      (tksPipe pats (leAt d 0x20 4) (leAt d 0x24 4) (leAt d 0x28 4) u, s)

/-- The result record (R305). -/
def TksResult.bytes (r : TksResult) : List Byte :=
  leBytes 4 r.token ++ leBytes 4 r.kept ++ leBytes 1 r.status ++ leBytes 1 r.flags ++ zeros 6

/-- A request finished: the record, then the head count (R305). -/
def State.tksDone (s : State) (east : Bool) (d : List Byte) (put : Bool) (r : TksResult) : State :=
  let k := s.tks east
  let s := if put then s.ownWrite (leAt d 0x30 8) r.bytes else s
  let s := s.ownWrite (k.lTail + 4) (leBytes 4 (k.head + 1).toNat)
  s.modTks east fun k =>
    { k with head := k.head + 1, lastStatus := r.status, busy := k.tailCount != k.head + 1 }

/-- One request processed: its descriptor read, checked, answered. -/
def State.tksRequest (s : State) (east : Bool) : State :=
  let k := s.tks east
  let a := k.lRing + 64 * (k.head.toNat % 2 ^ k.lSize)
  if s.hbmAsleep a 64 then s.noteAsleep.tksDone east [] false (tksNone stHalfAsleep 0)
  else
    let (d, s, struck) := s.hbmRead a 64
    if struck.isSome then s.tksDone east [] false (tksNone stUncorr 0)
    else if s.tksBad k.lClause d then
      (if zeroTemp (leAt d 0x20 4) then s else s.loseSlot (byteAt d 1)).tksDone east d (s.tksResultOk k.lClause d) (tksNone stTksArg 0)
    else
      let (r, s) := s.tksRun k.lClause d
      s.tksDone east d true r

/-- A sampler disabled. -/
def Tks.disable (k : Tks) : Tks := { k with enable := false, busy := false }

/-- Whether a request of a sampler is in progress: a sampler that serves takes the next entry at once (R298). -/
def State.tksBusy (s : State) (east : Bool) : Bool :=
  let k := s.tks east
  s.halfUp east && k.enable && k.tailCount != k.head

/-- A sampler's enable cleared after the request in progress completes (R306). -/
def State.tksStop (s : State) (east : Bool) : State :=
  (if s.tksBusy east then s.tksRequest east else s).modTks east Tks.disable

/-- Both samplers disabled (R306, R471, R478). -/
def State.disableTks (s : State) : State := (s.tksStop false).tksStop true

end Sys2Proof.Machine
end

