-- ==== Sys2Proof/Machine/ResetOps.lean ====
section
/-! DEFINITION. How runs end, the clause reset, the token samplers' disabling, and the tamper alarm (R139, R176, R306,
R437, R444, R476-R483, R507). -/
namespace Sys2Proof.Machine

/-! ## The end of a run -/

/-- A run of a REPLAY that ended with OK or SAT: the REPLAY goes on (R447). -/
def Replay.ranOn (sat : Bool) (mask : BitVec 3) (r : Replay) : Replay :=
  { r with satSeen := r.satSeen || sat, sat := r.sat ||| mask }

/-- A clause's run ends with a status: its gloss record is written, its command finished (R137, R176, R437). -/
def State.closeRun (s : State) (c status d0 d1 d2 : Nat) : State :=
  match s.clauseSt c with
  | none => s
  | some x =>
    match x.run with
    | none => s
    | some r =>
      let s := s.glossEnd c r status
      let s := s.modClause c fun x => { x with run := none }
      match s.replay with
      | some p =>
        if p.cmd = r.cmd then
          if status = stOK || status = stSat then
            { s with replay := some (p.ranOn (status == stSat) x.satMask) }
          else s.replayOver.finish r.cmd status d0 d1 d2
        else s.finish r.cmd status d0 d1 d2
      | none => s.finish r.cmd status d0 d1 d2

/-- A REPLAY between its runs ends with a status. -/
def State.endReplay (s : State) (status : Nat) : State :=
  match s.replay with
  | some p => s.replayOver.finish p.cmd status 0 0 0
  | none => s

/-! ## The clause reset (R34, R507) -/

/-- One issued transfer or atomic completed, where it can be. -/
def State.drainOp (c : Nat) (members : List Nat) (s : State) (o : (Nat × Dma) ⊕ AtomReq) : State :=
  match o with
  | .inl (t, d) => if s.viaReady d.via then dmaFinish t d (s.dmaMove t c members d) else s
  | .inr e => if s.viaReady e.via then s.atomDone e else s

/-- The transfers and atomics that a clause has issued completed in the order of their issue, as a hold lets them; those
that cannot be are dropped (R34, R146). -/
def State.drainOps (s : State) (c : Nat) (members : List Nat) : State :=
  let ds := members.flatMap fun t => (s.tile t).dmas.map fun d => (d.stamp, (Sum.inl (t, d) : (Nat × Dma) ⊕ AtomReq))
  let as := (s.atoms.filter fun e => e.clause == c).map fun e => (e.stamp, (Sum.inr e : (Nat × Dma) ⊕ AtomReq))
  ((ds ++ as).mergeSort fun a b => a.1 ≤ b.1).foldl (fun s o => s.drainOp c members o.2)
    { s with atoms := s.atoms.filter fun e => e.clause != c }

/-- The osier array without anything in progress; the writes and the swap that waited, which had issued, take effect
(R34). -/
def Osier.stopRuns (o : Osier) : Osier :=
  { o.applyWrites with
    run := none, events := [], loading := none, swapPending := false, bank := if o.swapPending then !o.bank else o.bank }

/-- A debug hold released (R529, R533). -/
def Dbg.release (d : Dbg) : Dbg := { d with hold := false, held := false, stepPending := false }

/-- Every slot emptied: the flags of a phrase that leaves one stay readable there (R129; log entry 89, DEDUCED), and what it
has filled and not awaited stays undefined (R146). -/
def Tile.emptySlots (T : Tile) : Tile :=
  { T with
    endFlags := T.endFlags.mapIdx fun i fl => (((T.slots.getD i none).map fun (ph : Phrase) => ph.vflags)).getD fl
    slots := List.replicate 64 none
    fills := T.fills.map fun k => { k with slot := 64 } }

/-- The array with its output tile and the gang traffic gone: TSQ_ARR_STAT keeps what it reports of the last output tile
(R105, R107). -/
def ArrayU.abandon (u : ArrayU) : ArrayU :=
  { u with isOpen := false, loading := none, gen := 0, opens := [], rows := [], sums := [] }

/-- A tile's share of a clause reset: no phrase, no queued item, no transfer, no output tile, no osier run, no debug hold,
stop counts as at the start. -/
def Tile.clauseReset (T : Tile) : Tile :=
  { T with dbg := T.dbg.release, held := false, slots := List.replicate 64 none, endFlags := List.replicate 64 0, wq := [],
           partc := List.replicate 16 1, arr := List.replicate 16 [], dmas := [], fills := [],
           fault := FaultReg.reset, lastIssue := 63, au := ArrayU.reset, os := T.os.stopRuns }

/-- An output tile that is discarded without a drain, with its chunk ticks counted as wasted (R538, R539). -/
def State.discardTile (s : State) (t : Nat) : State :=
  let s := if (s.tile t).au.isOpen then s.tally t 0x0A 1 else s
  (s.tally t 0x01 (s.tile t).pendTicks).modTile t fun T => { T with pendTicks := 0 }

/-- What the end of a tile's run by force records: when it ended (R229), and the swap that waited for it (R540). -/
def State.cutRun (s : State) (t : Nat) : State :=
  (if (s.tile t).os.swapPending then s.tally t 0x47 1 else s).noteIdle t

/-- The debug nonce made invalid (R486). -/
def State.dropNonce (s : State) : State := { s with sec := { s.sec with nonceValid := false } }

/-- A clause stopped and reset: what it has issued completes, its run ends with the status, its tiles, stops and fold slots
return to their start (R478, R507). -/
def State.clauseReset (s : State) (status c : Nat) : State :=
  let m := s.members c
  let s := s.dropNonce.drainOps c m
  let s := s.closeRun c status 0 0 0
  let mine := fun (x : FoldSt) => ((s.foldRec x.slot).map fun r => r.clause == c).getD true
  let s := { s with folds := s.folds.filter fun x => !mine x
                    spins := s.spins.filter fun e => !(m.contains e.tile || m.contains e.target) }
  let s := m.foldl (fun s t => ((s.cutRun t).discardTile t).modTile t Tile.clauseReset) s
  let s := m.foldl (fun s t => s.modOs t fun o => { o with bsum := s.bridgeSums t }) s
  s.modClause c fun _ => ClauseSt.fresh c

/-- Every installed clause reset, and a REPLAY between its runs ended. -/
def State.resetClauses (s : State) (status : Nat) : State :=
  ((s.clauses.map (·.id)).foldl (fun s c => s.clauseReset status c) s).endReplay status

/-! ## The tamper alarm (R476-R483) -/

/-- The sources present: 5 while a hopper's ent_fail is set (R476). -/
def State.almPresent (s : State) : BitVec 6 :=
  s.alm.present ||| (if s.hopW.entFail || s.hopE.entFail then 0x20 else 0)

/-- The action of a source (R477). -/
def Alm.action (a : Alm) (k : Nat) : Nat := a.policy.toNat / 4 ^ k % 4

/-- A tile's debug registers once the level is 0: no hold, no breakpoint enabled (R529). -/
def Dbg.lock (d : Dbg) : Dbg :=
  { d.release with holdEn := false, bps := d.bps.map fun (b : Bp) => { b with enable := false } }

/-- The debug port locked: the level is 0 and every debug hold is released (R489, R529). -/
def State.lockDebug (s : State) : State :=
  { s with
    sec := { s.sec with debug := 0 }
    tiles := s.tiles.map fun (T : Tile) => { T with dbg := T.dbg.lock }
    mboxW := { s.mboxW with hold := false, held := false }
    mboxE := { s.mboxE with hold := false, held := false } }

/-- The alarm reset (R478); the token samplers were disabled before (log entry 97, DESIGN CHOICE). -/
def State.alarmReset (s : State) : State := ((s.resetClauses stAlarmed).lockDebug).dropNonce

/-- The erasure of an alarm action (R477). -/
def State.alarmErase (s : State) (action : Nat) : State :=
  if action = 3 then s.eraseAll else if action = 2 then s.eraseSession else s

/-- A slot. -/
def Fw.slot (f : Fw) (one : Bool) : FwSlot := if one then f.slot1 else f.slot0

/-- A slot changed. -/
def Fw.modSlot (f : Fw) (one : Bool) (g : FwSlot → FwSlot) : Fw :=
  if one then { f with slot1 := g f.slot1 } else { f with slot0 := g f.slot0 }

/-- What the slot records hold of a slot. -/
def FwSlot.held (k : FwSlot) : SlotMeta := { rollback := k.rollback, state := k.state, format := k.format }

/-- A slot as the slot records describe it. -/
def FwSlot.under (k : FwSlot) (m : SlotMeta) : FwSlot := { k with rollback := m.rollback, state := m.state, format := m.format }

/-- The valid copy of the slot records with the highest sequence number (R548). -/
def Fw.latest (f : Fw) : Option FwRecord :=
  match f.copy0, f.copy1 with
  | some a, some b => if a.seq < b.seq then some b else some a
  | a, none => a
  | none, b => b

/-- The slot records changed: a complete new copy, with a higher sequence number, over the older one (R548). -/
def Fw.commit (f : Fw) : Fw :=
  let n := (f.latest.map (·.seq)).getD 0
  let r : FwRecord :=
    { seq := n + 1, state := f.state, pend := f.pend, activeSlot := f.activeSlot, attempts := f.attempts,
      meta0 := f.slot0.held, meta1 := f.slot1.held }
  if (f.copy0.map (·.seq)) = some n then { f with copy1 := some r } else { f with copy0 := some r }

/-- The slot records as a boot takes them from the copy it trusts (R548). -/
def Fw.trust (f : Fw) : Fw :=
  match f.latest with
  | none => f
  | some r =>
    { f with state := r.state, pend := r.pend, activeSlot := r.activeSlot, attempts := r.attempts,
             slot0 := f.slot0.under r.meta0, slot1 := f.slot1.under r.meta1 }

/-- A slot that was being staged is invalid (R552). -/
def FwSlot.cut (k : FwSlot) : FwSlot := if k.state = 1 then { k with state := 4 } else k

/-- A stage in progress cut short: its slot is invalid, and the records say so (R552). -/
def Fw.cutSlots (f : Fw) : Fw :=
  if f.slot0.state = 1 || f.slot1.state = 1 then { f with slot0 := f.slot0.cut, slot1 := f.slot1.cut }.commit else f

/-- The firmware block after a reset: a stage cut short, its registers at their reset values (R552, R568). -/
def Fw.reboot (f : Fw) : Fw :=
  { f.cutSlots with
    stage := none, streams := [], accepted := 0, refused := 0, hbmCopy := [], lastStatus := 0, defaulted := 0,
    recBusy := false, recDone := false, recStatus := 0, recOff := 0, recCount := 0, recBuf := [], recNext := 0,
    recImage := [], recTarget := none }

/-- A stage cut short by an alarm that latches ends with ALARMED, and says which next devices had accepted and refused it
(R552, R553). -/
def State.cutStage (s : State) : State :=
  match s.fw.stage with
  | none => s
  | some j =>
    let s' := { s with fw := { s.fw.cutSlots with stage := none, streams := [], lastStatus := stAlarmed } }
    match j.cmd with
    | some id => s'.finish id stAlarmed 0 (popCount 4 s.fw.accepted.toNat) s.fw.refused.toNat
    | none => s'

/-- A source signals: it is counted, and its action is performed; while the core is off the reset waits until it runs
(R476, R477, R483). -/
def State.signal (s : State) (k : Nat) : State :=
  let act := s.alm.action k
  let s := { s with alm := { s.alm with counts := s.alm.counts.modify k fun n => satAdd 16 n 1 } }
  if act = 0 then s
  else
    let s := { s with alm := { s.alm with latched := s.alm.latched ||| (1 <<< k), worst := max s.alm.worst act } }
    let s := s.disableTks.cutStage.alarmErase act
    if s.up then
      let s := (s.raise irqAlarm).alarmReset
      { s with pwr := { s.pwr with cause := 5 } }
    else { s with alm := { s.alm with pendingReset := true } }

/-- A physical source is or is no longer present; it signals as it comes (R476). -/
def State.sourcePresent (s : State) (k : Nat) (present : Bool) : State :=
  let was := s.alm.present.getLsbD k
  let s := { s with alm := { s.alm with
    present := if present then s.alm.present ||| (1 <<< k) else s.alm.present &&& ~~~(BitVec.ofNat 6 (1 <<< k)) } }
  if present && !was then s.signal k else s

/-- The limit of consecutive authentication failures reached: source 3 signals and its count starts anew (R476). -/
def State.authDue (s : State) : State :=
  if max 1 s.alm.authLimit.toNat ≤ s.alm.authRun then { s with alm := { s.alm with authRun := 0 } }.signal 3 else s

/-- A temperature sensor's reading, in units of 0.25 °C: source 1 is present while any sensor that is read stands out of
range (R476). -/
def State.senseTemp (s : State) (x : Sensor) (temp : Int) : State :=
  let out := decide (temp < 4 * s.alm.tLow.toInt) || decide (4 * (s.alm.tHigh.toNat : Int) < temp)
  let l := s.alm.hot.filter (· != x) ++ (if out then [x] else [])
  { s with alm := { s.alm with hot := l } }.sourcePresent 1 !l.isEmpty

/-- Sensors that are no longer read: source 1 does not stay present for them (log entry 103, DEDUCED). -/
def State.blindSensors (s : State) (p : Sensor → Bool) : State :=
  let l := s.alm.hot.filter fun x => !p x
  { s with alm := { s.alm with
      hot := l, present := if l.isEmpty then s.alm.present &&& ~~~(2 : BitVec 6) else s.alm.present } }

/-- One authentication failure (R476). -/
def State.authFail (s : State) : State := { s with alm := { s.alm with authRun := s.alm.authRun + 1 } }.authDue

/-- One rejected token or refused debug operation (R476, SEC_DBG_STAT.fails). -/
def State.debugFail (s : State) : State :=
  let s := { s with sec := { s.sec with dbgFails := satAdd 8 s.sec.dbgFails 1 } }
  let n := s.alm.dbgRun + 1
  if max 1 s.alm.dbgLimit.toNat ≤ n then { s with alm := { s.alm with dbgRun := 0 } }.signal 4
  else { s with alm := { s.alm with dbgRun := n } }

end Sys2Proof.Machine
end

