-- ==== Sys2Proof/Machine/Calibrate.lean ====
section
/-! DEFINITION. The commands of the calibrator and of the rails (R222-R232, R502, R503). -/
namespace Sys2Proof.Machine

/-- TJ_SAMPLE (R225, R230, R476): a trigger is judged against CAL_REF as it stands, then a calibration under way restarts where Tj
has moved too far (R228). -/
def execTjSample (t : Nat) (tj : Int) (s : State) : Host.Outcome State Fault Refusal :=
  if !s.tileUp t then .next s
  else
    let s := s.modCal t fun k => { k with now := { k.now with tj := tj } }
    let s := if 4 * (s.pwr.tOn.toNat : Int) ≤ tj then s.tally t 0x52 1 else s
    let k := (s.tile t).cal
    let s := if k.compares && decide (calThreshold k.dt < gap tj k.ref.tj) then s.calFire t 1 else s
    .next ((s.calSteady t).senseTemp (.tile t) tj)

/-- A telemetry read that succeeded, at one tile (R225-R227, R230). -/
def State.calTelemetry (s : State) (r : Telemetry) (t : Nat) : State :=
  let s := s.modCal t fun k => { k with
    vsrc := false, now := { k.now with vc := r.vout, va := r.vana }
    rail := k.rail.filter fun w => decide (5 < gap r.vout w.1) }
  let k := (s.tile t).cal
  let s := if k.compares && decide (calThreshold k.dv < gap r.vout k.ref.vc) then s.calFire t 2 else s
  let s := if k.compares && decide (20 < gap r.vana k.ref.va) then s.calFire t 3 else s
  s.calSteady t

/-- TELEMETRY_READ: what the regulators answered, or nothing (R225, R226), and what VSTBY has done to the key store (R504). -/
def execTelemetryRead (h : Half) (reading : Option Telemetry) (s : State) : Host.Outcome State Fault Refusal :=
  let e := isEast h
  if !s.stewardRuns e then .next s
  else
    match reading with
    | none =>
      let s := s.modRail e fun r => { r with noresp := true }
      .next ((s.halfTiles e).foldl (fun s t => s.modCal t fun k => { k with vsrc := true }) s)
    | some r =>
      let s := s.modRail e fun k =>
        { k with vout := r.vout, lastOk := s.timer, uvSeen := k.uvSeen || r.uv, noresp := false }
      .next (((s.halfTiles e).foldl (fun (s : State) t => s.calTelemetry r t) { s with pwr := { s.pwr with vana := r.vana } }).tear r.torn)

/-- Whether the array is at a point at which a calibration may start: no ORUN or OSEL, or a round boundary of a lockstep
or loose ORUN (R214, R228). -/
def Osier.calPoint (o : Osier) : Bool :=
  match o.run with
  | none => true
  | some r => (r.kind == 0 || r.kind == 1) && !r.inPhase && r.strand == 0

/-- Whether a calibration is due: the array's power returned, it was asked to leave 0b11, it is stale or CAL_CMD.start
waits; and a rail whose commanded setpoint triggered it has settled (R227, R228, R231). -/
def Calib.due (k : Calib) (now : Nat) : Bool :=
  ((k.cal == 1 && k.step == 0) || k.cal == 2 || k.startCmd) && (k.rail.map fun w => decide (w.2 ≤ now)).getD true

/-- CALIBRATION_START. -/
def execCalibrationStart (t : Nat) (s : State) : Host.Outcome State Fault Refusal :=
  let k := (s.tile t).cal
  if s.tileUp t && s.stewardRuns (s.tileEast t) && k.due s.timer && (s.tile t).os.calPoint then
    .next ((s.modCal t (Calib.begin s.timer (if k.startCmd then 5 else k.trigger))).tally t 0x4D 1)
  else .next s

/-- CALIBRATION_COMPLETE: the steps that remain end, and the calibration is judged under R223 from what it measured (R222). -/
def execCalibrationComplete (t : Nat) (m : CalMeas) (s : State) : Host.Outcome State Fault Refusal :=
  if s.tileUp t && (s.tile t).cal.step != 0 then
    let start := s.offsStart t
    let s := s.modCal t (Calib.quality start m)
    .next (if measReason start m = 0 then (s.modCal t (Calib.pass start m)).calEnd t else s.calFail t)
  else .next s

/-- SPOT_CHECK_START: the array valid or failed, and idle for spot_idle µs, 0 acting as 1; at most one per spot_period, or
CAL_CMD.spot waits (R229, R235; log entry 95). -/
def execSpotCheckStart (t : Nat) (s : State) : Host.Outcome State Fault Refusal :=
  let k := (s.tile t).cal
  let due := k.spotCmd ||
    (k.spotPeriod != 0 && (k.lastSpot.map fun x => decide (x + 1000000 * k.spotPeriod.toNat ≤ s.timer)).getD true)
  let idle := (s.tile t).os.run.isNone && decide (k.idleAt + 1000 * max 1 k.spotIdle.toNat ≤ s.timer)
  if s.tileUp t && idle && (k.cal == 0 || k.cal == 3) && !k.spot && due then
    .next (s.modCal t fun k => { k with spot := true, spotCmd := false, lastSpot := some s.timer })
  else .next s

/-- SPOT_CHECK_COMPLETE: the largest deviation, in units of 2^-16 (R225 cause 4, R229). -/
def execSpotCheckComplete (t : Nat) (dev : Nat) (s : State) : Host.Outcome State Fault Refusal :=
  if s.tileUp t && (s.tile t).cal.spot then
    let v := BitVec.ofNat 16 (min 65535 dev)
    let s := (s.modCal t fun k => { k with
      spot := false, driftLast := v, driftWorst := if k.driftWorst < v then v else k.driftWorst
      driftCount := satAdd 32 k.driftCount 1 }).tally t 0x4F 1
    .next (if 1639 ≤ dev then s.calFire t 4 else s)
  else .next s

/-- CAL_CMD.start (R231). -/
def State.calStart (s : State) (t : Nat) : State :=
  s.modCal t fun k =>
    if k.cal = 1 then k else if k.cal = 3 then { k with cal := 1, trigger := 5 } else { k with startCmd := true }

/-- CAL_CMD_START: a write of 1 to CAL_CMD.start. -/
def execCalCmdStart (t : Nat) (s : State) : Host.Outcome State Fault Refusal :=
  if s.tileUp t then .next (s.calStart t) else .next s

/-- CAL_CMD_SPOT: a write of 1 to CAL_CMD.spot. -/
def execCalCmdSpot (t : Nat) (s : State) : Host.Outcome State Fault Refusal :=
  if s.tileUp t then .next (s.modCal t fun k => { k with spotCmd := true }) else .next s

/-! ## Throttling and setpoints (R502, R503) -/

/-- THROTTLE_STEP: the setpoint of a half compared and moved. -/
def execThrottleStep (h : Half) (s : State) : Host.Outcome State Fault Refusal :=
  let e := isEast h
  let on : Int := s.pwr.tOn.toNat
  let off : Int := min (s.pwr.tOff.toNat : Int) (on - 1)
  let step := max 1 s.pwr.step.toNat
  let tj := s.hottest e
  let v := (s.rail e).vcmd
  let v' := if 4 * on ≤ tj then max (min 600 v) (v - step) else if tj < 4 * off then min (s.vset e) (v + step) else v
  if s.stewardRuns e && v' != v then .next (s.setpoint e v') else .next s

/-- PWR_VSET written: each half's new setpoint goes to its regulator, but a half that is throttled stays below it. -/
def State.writeVset (s : State) (v : Nat) : State :=
  let held := fun (e : Bool) => decide ((s.rail e).vcmd < s.vset e)
  let s' := { s with pwr := { s.pwr with vsetW := BitVec.ofNat 16 (bitsAt v 31 16), vsetE := BitVec.ofNat 16 (bitsAt v 15 0) } }
  [false, true].foldl (fun s' e =>
    let mv := if held e then min (s.rail e).vcmd (s'.vset e) else s'.vset e
    if s'.halfUp e && mv != (s.rail e).vcmd then s'.setpoint e mv else s') s'

/-- PWR_VSET_WRITE. -/
def execPwrVsetWrite (val : BitVec 32) (s : State) : Host.Outcome State Fault Refusal :=
  if s.hostUp then .next (s.writeVset val.toNat) else .next s

end Sys2Proof.Machine
end

