-- ==== Sys2Proof/Machine/Runs.lean ====
section
/-! DEFINITION. Clause runs: LAUNCH, the start of queued phrases, load balancing, the end of a run (R133-R141, R174-R177,
R410, R411, R413, R414, R431-R438). -/
namespace Sys2Proof.Machine

/-! ## Who waits for an APPLY_WEAVE (R70, R71) -/

/-- Whether a clause holds a tile that a weave takes. -/
def ClauseRec.onTiles (tiles : List Nat) (r : ClauseRec) : Bool := r.members.any fun t => tiles.contains t

/-- The installed clauses that an apply of a staged weave ends: all for a full weave; for a partial one those it names and
those on a tile it takes (R70, R75). -/
def State.applyEnds (s : State) (w : Weave) : List Nat :=
  let old := (s.weave.installed.map (·.clauses)).getD []
  (if w.isPartial then old.filter fun r => w.clauses.any (·.id == r.id) || r.onTiles w.tiles else old).map (·.id)

/-- The clauses that an apply of a staged weave affects. -/
def State.applyAffects (s : State) (w : Weave) (c : Nat) : Bool :=
  (s.applyEnds w).contains c || w.clauses.any (·.id == c)

/-- Whether a LOAD_WEAVE started before a command has not finished: what its weave will name is not yet known. -/
def State.loadBefore (s : State) (id : Nat) : Bool :=
  s.started.any fun x => x.opcode == 0x01 && x.fin.isNone && decide (x.id < id)

/-- Whether a command waits for an APPLY_WEAVE, started before it, that affects the clause it names (R71). While a
LOAD_WEAVE before that APPLY_WEAVE is unfinished every clause may be affected, and the command waits (log entry 90,
DEDUCED). -/
def State.afterApply (s : State) (id c : Nat) : Bool :=
  s.started.any fun x => x.opcode == 0x02 && x.fin.isNone && decide (x.id < id) &&
    (s.loadBefore x.id || ((s.weave.staged.map fun w => s.applyAffects w c).getD false))

/-! ## LAUNCH -/

/-- A tile at the launch of its clause: one root phrase in slot 0, an empty queue, stop counts of 1, no fault recorded;
what a fault freeze left is gone (R133, R152, R175, R177, R188, R196, R207). -/
def Tile.launch (root : Phrase) (T : Tile) : Tile :=
  { T.emptySlots with
    slots := (List.replicate 64 none).set 0 (some root), wq := [], partc := List.replicate 16 1,
    arr := List.replicate 16 [], dmas := [], fault := FaultReg.reset, au := T.au.abandon, 
    os := { T.os.stopRuns with events := T.os.events }.launchReset }

/-- The root phrase of member k (R133). -/
def rootPhrase (entry k : Nat) (args : List (BitVec 64)) : Phrase := Phrase.fresh entry 1 (rootIdBase + k) args

/-- The root phrases of a clause started; a bank swap that was pending counts as it takes effect (R540). -/
def State.startRoots (s : State) (members : List Nat) (args : List (BitVec 64)) : State :=
  members.zipIdx.foldl (fun s tk =>
    let t := tk.1
    (((s.cutRun t).discardTile t).modTile t fun T => T.launch (rootPhrase T.entry tk.2 args)).tally t 0x12 1) s

/-- The run of a clause begun by a command: its gloss request read and its inputs hashed, then its root phrases
started (R133, R431, R432). -/
def State.startRun (s : State) (c cmd : Nat) (args : List Byte) : State :=
  let vals := tab 16 fun i => BitVec.ofNat 64 (leAt args (8 * i) 8)
  let s := s.recordLaunch c args
  let s := s.modClause c fun _ =>
    { ClauseSt.fresh c with run := some { cmd := cmd, args := vals, tStart := s.timer, gloss := none } }
  let (g, s) := s.glossStart c
  let s := s.modClause c fun x => { x with run := x.run.map fun r => { r with gloss := g } }
  let m := s.members c
  let s := { s with spins := s.spins.map fun (e : SpinEv) => if m.contains e.target then { e with before := 0 } else e }
  s.startRoots m vals

/-- The 128 argument bytes of a LAUNCH, or how it completes without them (R411). -/
inductive Args where
  | ok (bytes : List Byte) (s : State)
  | arg
  | asleep
  | struck (line : Nat) (s : State)
  deriving DecidableEq, Repr

/-- The arguments read. -/
def State.readArgs (s : State) (a : Nat) : Args :=
  if a = 0 then .ok (zeros 128) s
  else if a % 8 ≠ 0 || !userHbm a 128 then .arg
  else if s.hbmAsleep a 128 then .asleep
  else
    let (l, s, x) := s.hbmRead a 128
    match x with
    | some line => .struck line s
    | none => .ok l s

/-- LAUNCH, once its clause is free. -/
def State.launchNow (s : State) (id c a : Nat) : State :=
  match s.readArgs a with
  | .arg => s.cmdArg id 8
  | .asleep => s.noteAsleep.finish id stHalfAsleep 0 0 0
  | .struck line s => s.finish id stUncorr line 0 0
  | .ok l s => s.startRun c id l

/-- Whether a clause has a run in progress, or a REPLAY between its runs. -/
def State.clauseTaken (s : State) (c : Nat) : Bool :=
  ((s.clauseSt c).map (·.run.isSome)).getD false || s.replaying (some c)

/-- LAUNCH (R133): refused while alarmed (R479), waits for an APPLY_WEAVE (R71) and for the clause's run (R410). -/
def execLaunch (id : Nat) (s : State) : Host.Outcome State Fault Refusal :=
  .next (s.withCmd id 0x03 fun d =>
    let c := d.param0 % 64
    if s.alarmed then s.finish id stAlarmed 0 0 0
    else if s.afterApply id c then s
    else if (s.clauseRec c).isNone then s.finish id stWeaveNone 0 0 0
    else if s.clauseTaken c then s
    else s.launchNow id c (d.le 8 8))

/-! ## Queued phrases (R137, R140, R181) -/

/-- The phrase that a queued item starts: a new one, or the saved one. -/
def WorkItem.phrase (i : WorkItem) : Phrase := i.resume.getD (Phrase.fresh i.entry i.lanes i.base i.args)

/-- Whether a tile takes work: its half runs, it belongs to a clause, and no fault freezes it. -/
def State.works (s : State) (t : Nat) : Bool :=
  s.tileUp t && match (s.tile t).clause with
    | some c => !s.frozen c
    | none => false

/-- The lowest free phrase slot. -/
def Tile.freeSlot (T : Tile) : Option Nat := firstIdx T.slots (·.isNone)

/-- PHRASE_START: the oldest queued item of a tile starts in its lowest free slot (R137). -/
def execPhraseStart (t : Nat) (s : State) : Host.Outcome State Fault Refusal :=
  match (s.tile t).wq, (s.tile t).freeSlot with
  | i :: rest, some p =>
    if s.works t then
      .next ((s.modTile t fun T => { T with slots := T.slots.set p (some i.phrase), wq := rest }).tally t 0x12 1)
    else .next s
  | _, _ => .next s

/-- The member with the most queued items, the lowest member index on a tie (R140). -/
def State.mostQueued (s : State) (members : List Nat) : Option Nat :=
  let n := fun t => (s.tile t).wq.length
  let top := members.foldl (fun a t => max a (n t)) 0
  if top = 0 then none else members.find? fun t => n t == top

/-- The oldest item of one tile's queue moved to another's. -/
def State.moveItem (s : State) (from_ dest : Nat) : State :=
  match (s.tile from_).wq with
  | i :: rest =>
    let s := (s.modTile from_ fun T => { T with wq := rest }).modTile dest fun T => { T with wq := T.wq ++ [i] }
    (s.tally dest 0x15 1).tally from_ 0x16 1
  | [] => s

/-- LOAD_BALANCE_TAKE: a tile with a free slot and an empty queue takes an item (R61, R140). -/
def execLoadBalanceTake (t : Nat) (s : State) : Host.Outcome State Fault Refusal :=
  let T := s.tile t
  match T.clause with
  | some c =>
    match s.mostQueued (s.members c) with
    | some u =>
      if s.works t && s.policy.loadBalance == 1 && s.policy.det != 1 && T.wq.isEmpty && T.freeSlot.isSome then
        .next (s.moveItem u t)
      else .next s
    | none => .next s
  | none => .next s

/-! ## The end of a run (R139, R176, R413, R414) -/

/-- Whether a clause has transfers, atomics or buffer loads on their way. -/
def State.opsOut (s : State) (c : Nat) : Bool :=
  s.atoms.any (fun e => e.clause == c) ||
    (s.members c).any fun t =>
      !(s.tile t).dmas.isEmpty || (s.tile t).au.loading.isSome || (s.tile t).os.loading.isSome

/-- Whether a group of a clause's fold can still move. -/
def State.foldMoves (s : State) (c : Nat) : Bool :=
  s.folds.any fun x =>
    match s.foldRec x.slot with
    | some r =>
      r.clause == c && !(x.mismatch && !isTileNode (r.node r.root)) &&
        (!x.exps.isEmpty || (List.range r.nodes.length).any fun i =>
          (allHeads (foldHeads r x i 2)).isSome || (r.twoPass && (allHeads (foldHeads r x i 1)).isSome))
    | none => false

/-- Whether a clause has a live phrase, a queued item or an osier run. -/
def State.phrasesOut (s : State) (c : Nat) : Bool :=
  (s.members c).any fun t =>
    !(s.tile t).live.isEmpty || !(s.tile t).wq.isEmpty || (s.tile t).os.run.isSome

/-- Whether an osier run that a frozen clause has issued can still go on: a phase in progress, a free-run, an event on its
way, or a phase stop that lets one begin. A run whose phase stop waits for phases that a frozen tile will never run
cannot (R174, R203; log entry 28, DEDUCED). -/
def State.osierMoves (s : State) (c : Nat) : Bool :=
  (s.members c).any fun t =>
    match (s.tile t).os.run with
    | some r => r.kind == 2 || r.inPhase || s.groupReached false t r.stale || s.spins.any fun e => e.target == t
    | none => false

/-- Whether what a clause has issued can still go on: a transfer, atomic or load, an osier run, a fold group (R174; log
entry 28, DEDUCED). -/
def State.issuedMoves (s : State) (c : Nat) : Bool := s.opsOut c || s.osierMoves c || s.foldMoves c

/-- Whether a clause's run is over: nothing outstanding, and no phrase left unless a fault froze them. -/
def State.runOver (s : State) (c : Nat) : Bool :=
  if s.frozen c then !s.issuedMoves c else !s.opsOut c && !s.phrasesOut c && !s.foldMoves c

/-- The role 3 digests of a run (R432). -/
def State.glossOutputs (s : State) (c : Nat) : State :=
  match ((s.clauseSt c).bind (·.run)).bind (·.gloss) with
  | some g =>
    let (d, s) := s.glossDigests c (fun r => r == 3) g.entries g.digests
    s.modClause c fun x => { x with run := x.run.map fun r => { r with gloss := some { g with digests := d } } }
  | none => s

/-- The fault that froze a clause: that of the lowest-numbered logical tile that recorded one (R176). A fault that a
RESTORE_CTX left recorded froze an earlier run (R177). -/
def State.firstFault (s : State) (c : Nat) : Option (Nat × FaultReg) :=
  if !s.frozen c then none else ((s.members c).find? fun t => (s.tile t).fault.valid).map fun t => (t, (s.tile t).fault)

/-- detail0 of a faulted run (R413). -/
def faultDetail (t : Nat) (f : FaultReg) : Nat := f.cause + f.phrase * 2 ^ 8 + t * 2 ^ 16 + f.pc * 2 ^ 32

/-- Whether a run's gloss signs, and so uses its key-store entry. -/
def State.glossSigns (s : State) (c : Nat) : Bool :=
  ((((s.clauseSt c).bind (·.run)).bind (·.gloss)).map (·.sign)).getD false

/-- A run that is over completed with its status (R139, R176, R414). -/
def State.completeRun (s : State) (c : Nat) : State :=
  match s.firstFault c with
  | some (t, f) =>
    s.closeRun c (if f.cause = 5 then stHalfAsleep else stFault) (faultDetail t f) f.detail.toNat f.addr.toNat
  | none =>
    let s := s.glossOutputs c
    let s := if s.glossSigns c then s.checkEntry 0 else s
    let x := (s.clauseSt c).getD (ClauseSt.fresh c)
    if x.uncorr then s.closeRun c stUncorr (x.struck.getD 0) 0 0
    else if x.satMask ≠ 0 then s.closeRun c stSat 0 x.satMask.toNat 0
    else s.closeRun c stOK 0 0 0

/-- CLAUSE_RUN_COMPLETE: the chief steward completes a clause's run. -/
def execClauseRunComplete (c : Nat) (s : State) : Host.Outcome State Fault Refusal :=
  if s.chiefRuns && ((s.clauseSt c).bind (·.run)).isSome && s.runOver c then
    .next (if s.glossSigns c then (s.completeRun c).authDue else s.completeRun c)
  else .next s

end Sys2Proof.Machine
end

