-- ==== Sys2Proof/Machine/WeaveParse.lean ====
section
/-! DEFINITION. A weave's bytes: its header and sections (checks 2 to 11 of R65), and the records its sections hold,
read leniently: what lies past a body reads 0, and the checks refuse it. -/
namespace Sys2Proof.Machine

/-- A failed check: status, section type, offset from the start of the weave (R65). -/
abbrev WFail := Nat × Nat × Nat

/-- A section: type, version, flags, the offset of its header, the digest it names, its body. -/
structure WSec where
  typ : Nat
  ver : Nat
  flags : Nat
  off : Nat
  digest : List Byte
  body : List Byte
  deriving DecidableEq, Repr

/-! ## The header (R41, R43) -/

/-- The first test that fails, by its offset. -/
def firstBad (l : List (Nat × Bool)) : Option Nat := (l.find? fun x => !x.2).map (·.1)

/-- Check 2: magic, version, reserved bytes and bits, header_check. -/
def hdrCheck2 (h : List Byte) : Option Nat :=
  firstBad
    [(0x00, slice h 0 4 == [0x4E, 0x57, 0x56, 0x31]), (0x04, leAt h 4 2 == 1), (0x06, decide (leAt h 6 2 < 4)),
     (0x08, decide (leAt h 8 2 < 8)), (0x0E, allZero (slice h 0x0E 2)), (0x2C, allZero (slice h 0x2C 4)),
     (0xC0, allZero (slice h 0xC0 48)), (0xF0, shake256 16 (h.take 0xF0) == slice h 0xF0 16)]

/-- Check 3: this grade, section_count, tile_span. -/
def hdrCheck3 (grade n : Nat) (h : List Byte) : Option Nat :=
  firstBad
    [(0x08, bitAt (leAt h 8 2) grade), (0x0A, decide (1 ≤ leAt h 0x0A 2) && decide (leAt h 0x0A 2 ≤ 13)),
     (0x0C, decide (1 ≤ leAt h 0x0C 2) && decide (leAt h 0x0C 2 ≤ n))]

/-- Whether a header is of a signed weave. -/
def hdrSigned (h : List Byte) : Bool := bitAt (byteAt h 6) 0

/-- Whether a header is of a partial weave. -/
def hdrPartial (h : List Byte) : Bool := bitAt (byteAt h 6) 1

/-- body_length. -/
def hdrBody (h : List Byte) : Nat := leAt h 0x18 8

/-- Check 4: the lengths against the descriptor, the limit and one another. A total_length that agrees with the descriptor
and not with the other lengths is laid to body_length (0x18) in an unsigned weave, where only it is left, and to
total_length (0x10) in a signed one, after sig_offset and sig_length (log entry 88, DESIGN CHOICE). -/
def hdrCheck4 (len : Nat) (h : List Byte) : Option Nat :=
  let total := leAt h 0x10 8
  let body := hdrBody h
  let so := leAt h 0x20 8
  let sl := leAt h 0x28 4
  firstBad <|
    (0x10, total == len && decide (total ≤ 768 * 2 ^ 20)) ::
      (if hdrSigned h then
        [(0x20, so == 0x100 + body), (0x28, decide (1 ≤ sl) && decide (sl ≤ 1536)), (0x10, total == roundUp (so + sl) 64)]
       else [(0x20, so == 0), (0x28, sl == 0), (0x18, total == 0x100 + body), (0x80, allZero (slice h 0x80 32))])

/-- Check 5: base_digest; it is the field named also where the partial flag stands and no weave is installed (log entry 88,
DESIGN CHOICE). -/
def hdrCheck5 (w : WeaveSt) (h : List Byte) : Option Nat :=
  if hdrPartial h then
    if w.installed.isSome && slice h 0xA0 32 == w.digest.take 32 then none else some 0xA0
  else if allZero (slice h 0xA0 32) then none else some 0xA0

/-! ## Sections (R42, R45-R47) -/

/-- The section whose header stands at offset p, or the failure of check 9 it meets: order, flags, length, padding. -/
def secAt (raw : List Byte) (stop p : Nat) (prev : Option Nat) : Except WFail (WSec × Nat) :=
  let typ := leAt raw p 2
  let len := leAt raw (p + 8) 8
  let next := roundUp (p + 32 + len) 64
  let x : WSec :=
    { typ := typ, ver := leAt raw (p + 2) 2, flags := leAt raw (p + 4) 4, off := p, digest := slice raw (p + 16) 16,
      body := slice raw (p + 32) len }
  if prev.any (typ ≤ ·) || stop < next || 2 ≤ x.flags then .error (stWeaveShape, typ, p)
  else
    match firstIdx (slice raw (p + 32 + len) (next - (p + 32 + len))) (· != 0) with
    | some i => .error (stWeaveShape, 0, p + 32 + len + i)
    | none => .ok (x, next)

/-- n sections from offset p, and where the last one's padding ends; a section that the body has no room for is laid to the
one before it. -/
def secsFrom (raw : List Byte) (stop : Nat) : Nat → Nat → WSec → List WSec → Except WFail (List WSec × Nat)
  | 0, p, _, l => .ok (l, p)
  | n + 1, p, last, l =>
    if stop < p + 32 then .error (stWeaveShape, last.typ, last.off)
    else
      match secAt raw stop p (l.getLast?.map (·.typ)) with
      | .ok (x, next) => secsFrom raw stop n next x (l ++ [x])
      | .error e => .error e

/-- The first byte that is not 0 among those that pad a signature block to 64 bytes (R42, R43): they lie after the last
section (log entry 80, DEDUCED). -/
def sigPad (raw : List Byte) : Option Nat :=
  if hdrSigned raw then
    let o := leAt raw 0x20 8 + leAt raw 0x28 4
    (firstIdx (slice raw o (roundUp o 64 - o)) (· != 0)).map (o + ·)
  else none

/-- The sections of a weave (check 9). A section for which the body has no room is laid to the one before it, and a body
longer than its sections to the last one (log entry 88, DESIGN CHOICE). -/
def weaveSecs (raw : List Byte) : Except WFail (List WSec) :=
  let stop := 0x100 + hdrBody raw
  let start : WSec := { typ := 0, ver := 0, flags := 0, off := 0x100, digest := [], body := [] }
  match secsFrom raw stop (leAt raw 0x0A 2) 0x100 start [] with
  | .error e => .error e
  | .ok (l, p) =>
    match firstIdx (slice raw p (stop - p)) (· != 0) with
    | some i => .error (stWeaveShape, 0, p + i)
    | none =>
      if p ≠ stop then .error (stWeaveShape, (l.getLastD start).typ, (l.getLastD start).off)
      else
        match sigPad raw with
        | some o => .error (stWeaveShape, 0, o)
        | none => .ok l

/-- Check 10: the section digests. -/
def check10 (l : List WSec) : Option WFail :=
  (l.find? fun x => shake256 16 x.body != x.digest).map fun x => (stWeaveDigest, x.typ, x.off)

/-- The mandatory types (R46). -/
def mandatory (part : Bool) : List Nat := if part then [1, 2, 8, 0xD] else [1, 2, 3, 8, 9, 0xD]

/-- Whether a section is refused at check 11 for its type, version or flag (R46, R47). In a partial weave a skippable TALLY
or LINKS section of an unsupported version is ignored (R47), where R46 would have it absent (log entry 85, DESIGN CHOICE). -/
def WSec.refused (part : Bool) (x : WSec) : Bool :=
  let must := (mandatory part).contains x.typ
  let skip := bitAt x.flags 0
  if must then skip || x.ver != 1
  else if x.typ = 0 || 13 < x.typ || x.ver != 1 then !skip
  else part && (x.typ == 0xB || x.typ == 0xC) && !x.body.isEmpty

/-- Check 11: sections refused come before mandatory ones that are missing; a mandatory section of length 0 is named by its
own header (log entry 88, DESIGN CHOICE). -/
def check11 (part : Bool) (l : List WSec) : Option WFail :=
  match l.find? (·.refused part) with
  | some x => some (stWeaveShape, x.typ, x.off)
  | none =>
    ((mandatory part).find? fun t => !l.any fun x => x.typ == t && !x.body.isEmpty).map fun t =>
      (stWeaveShape, t, ((l.find? fun x => x.typ == t).map (·.off)).getD 0)

/-- A section that Jaset reads: supported and not empty (R46, R47). -/
def secOf (l : List WSec) (t : Nat) : Option WSec := l.find? fun x => x.typ == t && x.ver == 1 && !x.body.isEmpty

/-- The body of a section; empty where it is absent. -/
def bodyOf (l : List WSec) (t : Nat) : List Byte := ((secOf l t).map (·.body)).getD []

/-! ## Records -/

/-- The records of a size that a body holds from an offset, n at the most, with their offsets. -/
def recsOf (b : List Byte) (start size n : Nat) : List (Nat × List Byte) :=
  (List.range (min n ((b.length - start) / size))).map fun i => (start + size * i, slice b (start + size * i) size)

/-- The bytes of a list of n u16. -/
def u16s (b : List Byte) (o n : Nat) : List Nat := (chunks 2 (slice b o (2 * n))).map leNat

/-- The numbers of w bytes each, signed, in bytes. -/
def ints (w : Nat) (b : List Byte) : List Int := (chunks w b).map fun c => signed (8 * w) (leNat c)

/-- TILEMAP's tiles. -/
def tilemapTiles (b : List Byte) : List Nat := (List.range 512).filter fun i => bitAt (byteAt b (8 + i / 8)) (i % 8)

/-- CLAUSES records with their offsets. -/
def clauseRecs (b : List Byte) : List (Nat × List Byte) := recsOf b 8 16 (byteAt b 0)

/-- A CLAUSES record. -/
def parseClause (b r : List Byte) : ClauseRec :=
  { id := byteAt r 0, gangA := byteAt r 2, gangB := byteAt r 3, members := u16s b (leAt r 8 4) (leAt r 4 2) }

/-- A ROUTES record. -/
def parseRoute (r : List Byte) : RouteRec :=
  { kind := byteAt r 0, clause := byteAt r 1, network := byteAt r 2, vc := byteAt r 3, express := byteAt r 4,
    src := leAt r 6 2, dst := leAt r 8 2 }

/-- A node list. -/
def parseNodes (b : List Byte) (o n : Nat) : List TreeNode :=
  (chunks 4 (slice b o (4 * n))).map fun e => { node := leAt e 0 2, parent := leAt e 2 2 }

/-- An MCAST record. -/
def parseMcast (b r : List Byte) : McastRec :=
  { tree := leAt r 0 2, clause := byteAt r 2, network := byteAt r 3, nodes := parseNodes b (leAt r 8 4) (leAt r 4 2) }

/-- A FOLDS record. -/
def parseFold (b r : List Byte) : FoldRec :=
  { slot := leAt r 0 2, clause := byteAt r 2, kind := byteAt r 3, scale := signed 8 (byteAt r 4),
    nodes := parseNodes b (leAt r 8 4) (leAt r 6 2) }

/-- The β tables, n at the most, from an offset, with their offsets and bytes. -/
def tableRecs (b : List Byte) : Nat → Nat → List (Nat × List Byte)
  | 0, _ => []
  | n + 1, o =>
    if b.length < o + 16 then []
    else
      let len := 16 + 4 * leAt b (o + 2) 2
      (o, slice b o len) :: tableRecs b n (o + roundUp len 64)

/-- A β table. -/
def parseTable (r : List Byte) : BetaTable :=
  { id := byteAt r 0, roundsPer := leAt r 4 4, betas := (chunks 4 (r.drop 16)).map fun c => BitVec.ofNat 32 (leNat c) }

/-- Bytes of an OSIER tile record. -/
def osierSize : Nat := 263488

/-- The cells of a string of bytes laid from 0, without the zeros. -/
def byteCells (l : List Byte) : Mem := (l.zipIdx.filter fun c => c.1 != 0).map fun c => (c.2, c.1)

/-- An OSIER tile record. -/
def parseOsier (r : List Byte) : OsierRec :=
  { tile := leAt r 0 2, strandCount := byteAt r 2, betaTable := byteAt r 3, strands := nibbles (slice r 8 256),
    bias := ints 2 (slice r 0x108 1024), scale := nibbles (slice r 0x508 32), codes := byteCells (slice r 0x540 0x40000) }

/-- A bridge record. -/
def parseBridge (r : List Byte) : Bridge :=
  { ta := leAt r 0 2, tb := leAt r 2 2, ua := leAt r 4 2, ub := leAt r 6 2, code := signed 8 (byteAt r 8),
    scale := byteAt r 9 % 16 }

/-- The ANCHORS records, n at the most, from an offset, each as long as it says. -/
def anchorRecs (b : List Byte) : Nat → Nat → List (Nat × List Byte)
  | 0, _ => []
  | n + 1, o =>
    let len := leAt b (o + 4) 4
    if b.length < o + 0x48 || len < 0x48 then []
    else (o, slice b o len) :: anchorRecs b n (o + len)

/-- An ANCHORS record. -/
def parseAnchor (r : List Byte) : AnchorRec :=
  let n := byteAt r 2
  let w := byteAt r 3 / 8
  { tile := leAt r 0 2, count := n, width := byteAt r 3, strands := (slice r 8 64).map BitVec.toNat,
    bias := ints w (slice r 0x48 (n * w)), coef := ints w (slice r (0x48 + n * w) (n * (512 + n) * w)) }

/-- A PROGRAMS record with its code. -/
def parseProg (b r : List Byte) : ProgRec :=
  { clause := byteAt r 0, code := (chunks 8 (slice b (leAt r 8 4) (8 * leAt r 4 4))).map fun c => BitVec.ofNat 64 (leNat c),
    entry := leAt r 12 4 }

/-- A MEMPLAN record. -/
def parseRegion (r : List Byte) : Region :=
  { id := leAt r 0 2, kind := byteAt r 2, clauses := BitVec.ofNat 64 (leAt r 8 8), base := leAt r 16 8, len := leAt r 24 8 }

/-- A PGKEYS record with the key it opens to under a session key (R60). -/
def parseKey (kHd r : List Byte) : Option PgKeyRec :=
  (gcmOpen kHd (slice r 0x10 12) (slice r 0 16) (slice r 0x1C 16) (slice r 0x2C 16)).map fun k =>
    { slot := byteAt r 0, mask := BitVec.ofNat 64 (leAt r 8 8), nonce := slice r 0x10 12, cipher := slice r 0x1C 16,
      tag := slice r 0x2C 16, key := k }

/-- A TALLY body. -/
def parseTally (b : List Byte) : TallyCfg :=
  { dedicated := byteAt b 0 == 1, region := leAt b 2 2, period := leAt b 4 4, events := u16s b 8 8 }

/-- A LINKS body. -/
def parseLinks (b : List Byte) : LinksRec :=
  { devId := leAt b 0 2, roles := (slice b 8 32).map BitVec.toNat, fwNext := u16s b 0x28 4,
    routes := (recsOf b 0x40 8 (leAt b 2 2)).map fun e =>
      { first := leAt e.2 0 2, last := leAt e.2 2 2, mask := BitVec.ofNat 32 (leAt e.2 4 4) } }

/-- A POLICY body. -/
def parsePolicy (b : List Byte) : Policy :=
  { det := byteAt b 0, loadBalance := byteAt b 1, tallyVisible := byteAt b 2, freeRun := byteAt b 3,
    staleCal := byteAt b 4, lock := byteAt b 5, maxLoose := byteAt b 6 }

/-- The offsets and bytes of the PGKEYS records. -/
def keyRecs (b : List Byte) : List (Nat × List Byte) := recsOf b 8 64 (leAt b 0 4)

/-- A weave's sections read, its PGKEYS opened under the session key where one is held. -/
def parseWeave (raw : List Byte) (l : List WSec) (kHd : Option (List Byte)) : Weave :=
  let b := bodyOf l
  let o := b 6
  { isPartial := hdrPartial raw, gradeMask := leAt raw 8 2, tileSpan := leAt raw 0x0C 2, weaveId := slice raw 0x70 16,
    baseDigest := slice raw 0xA0 32, bodyDigest := slice raw 0x30 64, tiles := tilemapTiles (b 1),
    clauses := (clauseRecs (b 2)).map fun r => parseClause (b 2) r.2,
    routes := (recsOf (b 3) 8 16 (leAt (b 3) 0 4)).map fun r => parseRoute r.2,
    mcast := (recsOf (b 4) 8 16 (leAt (b 4) 0 4)).map fun r => parseMcast (b 4) r.2,
    folds := (recsOf (b 5) 8 16 (leAt (b 5) 0 4)).map fun r => parseFold (b 5) r.2,
    tables := (tableRecs o (leAt o 2 2) (leAt o 8 8)).map fun r => parseTable r.2,
    osier := (recsOf o (leAt o 16 8) osierSize (leAt o 0 2)).map fun r => parseOsier r.2,
    bridges := (recsOf o (leAt o 24 8) 12 (leAt o 4 4)).map fun r => parseBridge r.2,
    anchors := (anchorRecs (b 7) (min (leAt (b 7) 0 4) 512) 0x40).map fun r => parseAnchor r.2,
    programs := (recsOf (b 8) 8 16 (leAt (b 8) 0 4)).map fun r => parseProg (b 8) r.2,
    memplan := (recsOf (b 9) 8 32 (leAt (b 9) 0 4)).map fun r => parseRegion r.2,
    pgkeys := (keyRecs (b 0xA)).filterMap fun r => kHd.bind fun k => parseKey k r.2,
    tally := (secOf l 0xB).map fun x => parseTally x.body, links := (secOf l 0xC).map fun x => parseLinks x.body,
    policy := parsePolicy (b 0xD), raw := raw.take (0x100 + hdrBody raw) }

/-- Check 12: every PGKEYS record opens under the session's key (R60). -/
def check12 (l : List WSec) (kHd : Option (List Byte)) : Option WFail :=
  match secOf l 0xA with
  | none => none
  | some x =>
    match kHd with
    | none => some (stAuth, 0xA, x.off)
    | some k => ((keyRecs x.body).find? fun r => (parseKey k r.2).isNone).map fun r => (stAuth, 0xA, x.off + 32 + r.1)

end Sys2Proof.Machine
end

