-- ==== Sys2Proof/Machine/WeaveRules.lean ====
section
/-! DEFINITION. The content of a weave: checks 13 to 16 of R65 (R48-R59, R61, R63, R75-R77, R327, R335, R540, R591,
R592). Within check 13 the rules of one section come first, section by section, then those that look across sections, so
that R48 stands before any rule of membership. -/
namespace Sys2Proof.Machine

/-- A weave under check: its bytes, sections, records, this part's tile count, what is installed. -/
structure WCtx where
  secs : List WSec
  w : Weave
  nTiles : Nat
  old : Option Weave
  deriving DecidableEq, Repr

/-- A section's body. -/
def WCtx.body (x : WCtx) (t : Nat) : List Byte := bodyOf x.secs t

/-- Records paired with their offsets and bytes. -/
def withRecs {α : Type} (rs : List (Nat × List Byte)) (l : List α) : List (Nat × List Byte × α) :=
  List.zipWith (fun r a => (r.1, r.2, a)) rs l

/-- The first failed test of a section present, tests named by offset in its body. -/
def WCtx.fails (x : WCtx) (t status : Nat) (l : List (Nat × Bool)) : Option WFail :=
  match secOf x.secs t with
  | none => none
  | some sec => (firstBad l).map fun o => (status, t, sec.off + 32 + o)

/-- The first failure of a list of checks. -/
def firstFail (l : List (Option WFail)) : Option WFail := (l.find? (·.isSome)).getD none

/-- Whether n records of a size fit a body from an offset, laid to the first that does not. -/
def fitTest (b : List Byte) (start size n : Nat) : Nat × Bool :=
  (start + size * ((b.length - start) / size), decide (n ≤ (b.length - start) / size))

/-- Whether a key of record i differs from those before it. -/
def freshAt {α : Type} (l : List α) (key : α → Nat) (i : Nat) (a : α) : Bool := (l.take i).all fun y => key y != key a

/-! ## Check 13, one section at a time -/

/-- Whether a node value names something (R48); `any` where 0xFFFF may name every member. -/
def nodeOk (span : Nat) (any : Bool) (v : Nat) : Bool :=
  if v < 0x190 then decide (v < span)
  else if v = 0xFFFF then any
  else (decide (0x8000 ≤ v) && decide (v ≤ 0x800B)) || (decide (0x8010 ≤ v) && decide (v ≤ 0x8032))

/-- TILEMAP (R49). -/
def WCtx.tilemap (x : WCtx) : Option WFail :=
  let b := x.body 1
  x.fails 1 stWeaveShape
    [(0, b.length == 72 && leAt b 0 2 == x.w.tileSpan && allZero (slice b 4 4) && leAt b 2 2 == x.w.tiles.length &&
        x.w.tiles.all (· < x.w.tileSpan))]

/-- A gang's row or column count. -/
def gangOk (n : Nat) : Bool := n == 1 || n == 2 || n == 4 || n == 8

/-- Whether a list rises. -/
def rising (l : List Nat) : Bool := (List.zipWith (fun a b => decide (a < b)) l (l.drop 1)).all id

/-- A CLAUSES record (R50). -/
def WCtx.clauseOk (x : WCtx) (i : Nat) (r : List Byte) (c : ClauseRec) : Bool :=
  let n := leAt r 4 2
  let o := leAt r 8 4
  allZero (slice r 1 1) && allZero (slice r 6 2) && allZero (slice r 12 4) && decide (c.id < 64) &&
    freshAt x.w.clauses (·.id) i c && gangOk c.gangA && gangOk c.gangB && decide (n ≤ x.nTiles) &&
    (n != 0 || x.w.isPartial) && n % (c.gangA * c.gangB) == 0 && o % 2 == 0 && decide (o + 2 * n ≤ (x.body 2).length) &&
    rising c.members && c.members.all fun t =>
      decide (t < x.w.tileSpan) && (x.w.clauses.take i).all fun d => !d.members.contains t

/-- CLAUSES. -/
def WCtx.clausesSec (x : WCtx) : Option WFail :=
  let b := x.body 2
  let n := byteAt b 0
  x.fails 2 stWeaveShape <|
    (0, decide (1 ≤ n) && decide (n ≤ 64) && allZero (slice b 1 7)) ::
      ((withRecs (clauseRecs b) x.w.clauses).mapIdx fun i r => (r.1, x.clauseOk i r.2.1 r.2.2)) ++ [fitTest b 8 16 n]

/-- A ROUTES record (R48, R51). -/
def WCtx.routeOk (x : WCtx) (r : List Byte) (c : RouteRec) : Bool :=
  allZero (slice r 5 1) && allZero (slice r 10 6) &&
    if c.kind = 1 then
      decide (c.network ≤ 2) && decide (c.vc ≤ if c.network = 0 then 3 else 1) &&
        (decide (c.express ≤ 15) || c.express == 0xFF) && nodeOk x.w.tileSpan false c.src && nodeOk x.w.tileSpan true c.dst
    else
      c.kind == 2 && c.network == 0 && c.vc == 0 && c.express == 0 && c.src != c.dst &&
        decide (c.src < x.w.tileSpan) && decide (c.dst < x.w.tileSpan)

/-- ROUTES (R63: 16,384 flow records). -/
def WCtx.routesSec (x : WCtx) : Option WFail :=
  let b := x.body 3
  let n := leAt b 0 4
  x.fails 3 stWeaveShape <|
    (0, allZero (slice b 4 4) && decide (x.w.routes.countP (·.kind == 1) ≤ 16384)) ::
      ((withRecs (recsOf b 8 16 n) x.w.routes).map fun r => (r.1, x.routeOk r.2.1 r.2.2)) ++ [fitTest b 8 16 n]

/-- Whether a node list lies in a body and names nodes (R48). -/
def WCtx.nodesOk (x : WCtx) (b : List Byte) (o n : Nat) (l : List TreeNode) : Bool :=
  decide (o + 4 * n ≤ b.length) && l.all fun e => nodeOk x.w.tileSpan false e.node

/-- MCAST (R63: 512 trees). -/
def WCtx.mcastSec (x : WCtx) : Option WFail :=
  let b := x.body 4
  let n := leAt b 0 4
  x.fails 4 stWeaveShape <|
    (0, allZero (slice b 4 4) && decide (n ≤ 512)) ::
      ((withRecs (recsOf b 8 16 n) x.w.mcast).mapIdx fun i r =>
        (r.1, allZero (slice r.2.1 6 2) && allZero (slice r.2.1 12 4) && (r.2.2.network == 0 || r.2.2.network == 2) &&
          freshAt x.w.mcast (·.tree) i r.2.2 && x.nodesOk b (leAt r.2.1 8 4) (leAt r.2.1 4 2) r.2.2.nodes)) ++
      [fitTest b 8 16 n]

/-- FOLDS (R63: slots 0 to 1,023). -/
def WCtx.foldsSec (x : WCtx) : Option WFail :=
  let b := x.body 5
  let n := leAt b 0 4
  x.fails 5 stWeaveShape <|
    (0, allZero (slice b 4 4) && decide (n ≤ 1024)) ::
      ((withRecs (recsOf b 8 16 n) x.w.folds).mapIdx fun i r =>
        (r.1, allZero (slice r.2.1 5 1) && allZero (slice r.2.1 12 4) && decide (r.2.2.kind ≤ 4) && decide (r.2.2.slot < 1024) &&
          (r.2.2.kind == 4 || r.2.2.scale == 0) && freshAt x.w.folds (·.slot) i r.2.2 &&
          x.nodesOk b (leAt r.2.1 8 4) (leAt r.2.1 6 2) r.2.2.nodes)) ++ [fitTest b 8 16 n]

/-- Whether a β value is finite and not negative; −0 counts as 0 (R56). -/
def betaOk (v : BitVec 32) : Bool := (v.toNat / 2 ^ 23 % 256 != 255) && (!v.msb || v == 0x80000000)

/-- Whether the bytes that pad a part of a body to a multiple of 64 are 0 (R42). -/
def padOk (b : List Byte) (o len : Nat) : Bool := allZero (slice b (o + len) (roundUp len 64 - len))

/-- A β table (R56). -/
def WCtx.tableOk (x : WCtx) (i : Nat) (r : List Byte) (t : BetaTable) : Bool :=
  let n := leAt r 2 2
  allZero (slice r 1 1) && allZero (slice r 8 8) && t.id != 0xFF && freshAt x.w.tables (·.id) i t && decide (1 ≤ n) &&
    decide (n ≤ 1024) && decide (1 ≤ t.roundsPer) && t.betas.length == n && t.betas.all betaOk

/-- Whether codes are symmetric: the code at 512 i + j stands at 512 j + i too (R55). -/
def symmetric (all : Array Byte) (codes : Mem) : Bool :=
  codes.all fun c => all.getD (c.1 % 512 * 512 + c.1 / 512) 0 == c.2

/-- An OSIER tile record (R55, R56). -/
def WCtx.osierOk (x : WCtx) (i : Nat) (r : List Byte) (t : OsierRec) : Bool :=
  allZero (slice r 4 4) && allZero (slice r 0x528 24) && decide (t.tile < x.w.tileSpan) && freshAt x.w.osier (·.tile) i t &&
    (t.betaTable == 0xFF || x.w.tables.any (·.id == t.betaTable)) &&
    t.bias.all (fun v => decide (-2048 ≤ v) && decide (v ≤ 2047)) &&
    ((List.range 64).all fun k => t.scale.getD k 0 == t.scale.getD (k % 8 * 8 + k / 8) 0) &&
    symmetric (slice r 0x540 0x40000).toArray t.codes

/-- OSIER (R63: 64 tables, 262,144 bridges; R42: the padding of its tables, log entry 80). The limits of R63 are counted
over this weave alone, a partial one too (log entry 81, DEDUCED). -/
def WCtx.osierSec (x : WCtx) : Option WFail :=
  let b := x.body 6
  let nt := leAt b 2 2
  let nr := leAt b 0 2
  let nb := leAt b 4 4
  let tabs := tableRecs b nt (leAt b 8 8)
  x.fails 6 stWeaveShape <|
    (0, decide (64 ≤ b.length) && allZero (slice b 32 32) && leAt b 8 8 % 64 == 0 && leAt b 16 8 % 64 == 0 &&
        leAt b 24 8 % 64 == 0 && decide (nt ≤ 64) && decide (nb ≤ 262144)) ::
      ((withRecs tabs x.w.tables).mapIdx fun i r => (r.1, x.tableOk i r.2.1 r.2.2 && padOk b r.1 r.2.1.length)) ++
      [(((tabs.getLast?.map fun r => r.1 + roundUp r.2.length 64).getD (leAt b 8 8)), tabs.length == nt)] ++
      ((withRecs (recsOf b (leAt b 16 8) osierSize nr) x.w.osier).mapIdx fun i r => (r.1, x.osierOk i r.2.1 r.2.2)) ++
      [fitTest b (leAt b 16 8) osierSize nr] ++
      ((withRecs (recsOf b (leAt b 24 8) 12 nb) x.w.bridges).map fun r =>
        (r.1, allZero (slice r.2.1 10 2) && decide (r.2.2.ua < 512) && decide (r.2.2.ub < 512) &&
          decide (r.2.2.ta < x.w.tileSpan) && decide (r.2.2.tb < x.w.tileSpan))) ++ [fitTest b (leAt b 24 8) 12 nb]

/-- An ANCHORS record (R57; R42: what pads it to its length, log entry 80). -/
def WCtx.anchorOk (x : WCtx) (i : Nat) (r : List Byte) (a : AnchorRec) : Bool :=
  let n := a.count
  let len := leAt r 4 4
  (a.width == 16 || a.width == 32 || a.width == 64) && decide (n ≤ 64) && len % 64 == 0 && r.length == len &&
    decide (0x48 + n * (513 + n) * (a.width / 8) ≤ len) && allZero (r.drop (0x48 + n * (513 + n) * (a.width / 8))) &&
    decide (a.tile < x.w.tileSpan) &&
    freshAt x.w.anchors (·.tile) i a &&
    (List.range n).all fun p => (List.range n).all fun q =>
      a.coef.getD (p * (512 + n) + 512 + q) 0 == a.coef.getD (q * (512 + n) + 512 + p) 0

/-- ANCHORS. -/
def WCtx.anchorsSec (x : WCtx) : Option WFail :=
  let b := x.body 7
  let rs := anchorRecs b (min (leAt b 0 4) 512) 0x40
  x.fails 7 stWeaveShape <|
    (0, allZero (slice b 4 60)) :: ((withRecs rs x.w.anchors).mapIdx fun i r => (r.1, x.anchorOk i r.2.1 r.2.2)) ++
      [((rs.getLast?.map fun r => r.1 + r.2.length).getD 0x40, rs.length == leAt b 0 4)]

/-- PROGRAMS (R58). -/
def WCtx.programsSec (x : WCtx) : Option WFail :=
  let b := x.body 8
  let n := leAt b 0 4
  x.fails 8 stWeaveShape <|
    (0, allZero (slice b 4 4)) ::
      ((withRecs (recsOf b 8 16 n) x.w.programs).mapIdx fun i r =>
        let k := leAt r.2.1 4 4
        let o := leAt r.2.1 8 4
        (r.1, allZero (slice r.2.1 1 3) && decide (1 ≤ k) && decide (k ≤ 8192) && o % 8 == 0 && decide (r.2.2.entry < k) &&
          decide (o + 8 * k ≤ b.length) && freshAt x.w.programs (·.clause) i r.2.2)) ++ [fitTest b 8 16 n]

/-- MEMPLAN (R59, R63: 256 regions). -/
def WCtx.memplanSec (x : WCtx) : Option WFail :=
  let b := x.body 9
  let n := leAt b 0 4
  x.fails 9 stWeaveShape <|
    (0, allZero (slice b 4 4) && decide (n ≤ 256)) ::
      ((withRecs (recsOf b 8 32 n) x.w.memplan).mapIdx fun i r =>
        let g := r.2.2
        (r.1, decide (g.kind ≤ 5) && allZero (slice r.2.1 3 5) && g.base % 4096 == 0 && g.len % 4096 == 0 && g.len != 0 &&
          decide (g.base + g.len ≤ hbmUserEnd) && freshAt x.w.memplan (·.id) i g)) ++ [fitTest b 8 32 n]

/-- PGKEYS (R60, R63: 16 slots). -/
def WCtx.pgkeysSec (x : WCtx) : Option WFail :=
  let b := x.body 0xA
  let n := leAt b 0 4
  let rs := keyRecs b
  x.fails 0xA stWeaveShape <|
    (0, allZero (slice b 4 4) && decide (n ≤ 16)) ::
      (rs.mapIdx fun i r =>
        (r.1, allZero (slice r.2 1 7) && allZero (slice r.2 60 4) && decide (byteAt r.2 0 < 16) &&
          freshAt rs (fun y => byteAt y.2 0) i r)) ++ [fitTest b 8 64 n]

/-- Whether a gathered-mode event code is one of R540's. -/
def eventOk (e : Nat) : Bool := decide (e < 0x60) || decide (0x8000 ≤ e)

/-- TALLY's own fields (R540). -/
def tallyBodyOk (b : List Byte) : Bool :=
  b.length == 32 && decide (byteAt b 0 ≤ 1) && allZero (slice b 1 1) && allZero (slice b 24 8) &&
    if byteAt b 0 = 0 then (u16s b 8 8).all eventOk else allZero (slice b 8 16)

/-- LINKS (R591). -/
def WCtx.linksSec (x : WCtx) : Option WFail :=
  let b := x.body 0xC
  let n := leAt b 2 2
  x.fails 0xC stWeaveShape <|
    (0, decide (0x40 + 8 * n = b.length) && allZero (slice b 4 4) && allZero (slice b 0x30 16) &&
        (slice b 8 32).all fun r => decide (r.toNat ≤ 3)) ::
      (recsOf b 0x40 8 n).map fun e => (e.1, decide (leAt e.2 0 2 ≤ leAt e.2 2 2))

/-- POLICY (R61). -/
def WCtx.policySec (x : WCtx) : Option WFail :=
  let b := x.body 0xD
  x.fails 0xD stWeaveShape
    [(0, b.length == 32 && ((b.take 6).all fun v => decide (v.toNat ≤ 1)) && decide (byteAt b 6 ≤ 15) &&
        allZero (b.drop 7) && !(x.w.policy.staleCal == 1 && x.w.policy.freeRun == 0))]

/-! ## Check 13, across sections -/

/-- The clauses that a weave installs. -/
def Weave.installs (w : Weave) : List ClauseRec := w.clauses.filter fun c => !c.members.isEmpty

/-- The installed clause that a weave installs under an ID. -/
def Weave.clause (w : Weave) (c : Nat) : Option ClauseRec := w.installs.find? fun r => r.id == c

/-- The installed clauses that a partial weave neither replaces nor removes. -/
def WCtx.running (x : WCtx) : List ClauseRec :=
  if x.w.isPartial then
    ((x.old.map (·.clauses)).getD []).filter fun c => !x.w.clauses.any fun d => d.id == c.id
  else []

/-- Whether an ID is that of a clause that keeps running. -/
def WCtx.runs (x : WCtx) (c : Nat) : Bool := x.running.any fun r => r.id == c

/-- The clause of the weave that owns a tile. -/
def Weave.owner (w : Weave) (t : Nat) : Option Nat := (w.installs.find? fun c => c.members.contains t).map (·.id)

/-- Whether a region or key slot of a mask is owned only by clauses that go (R77): of the installed clauses the mask names
at least one, and all that it names go. A mask that names no installed clause belongs to none, and what bears it stays
through a partial apply (log entry 82, DESIGN CHOICE). -/
def onlyOf (installed : List ClauseRec) (gone : Nat → Bool) (m : BitVec 64) : Bool :=
  let owners := installed.filter fun c => m.getLsbD c.id
  !owners.isEmpty && owners.all fun c => gone c.id

/-- Whether an installed clause is replaced or removed by the weave. -/
def WCtx.gone (x : WCtx) (c : Nat) : Bool :=
  ((x.old.map (·.clauses)).getD []).any (fun r => r.id == c) && !x.runs c

/-- The installed regions that stay through a partial apply (R77). -/
def WCtx.keptRegions (x : WCtx) : List Region :=
  if x.w.isPartial then
    ((x.old.map (·.memplan)).getD []).filter fun r => !onlyOf ((x.old.map (·.clauses)).getD []) x.gone r.clauses
  else []

/-- CLAUSES against TILEMAP, the running clauses and PROGRAMS (R49, R58, R76). -/
def WCtx.clausesCross (x : WCtx) : Option WFail :=
  x.fails 2 stWeaveShape <|
    (withRecs (clauseRecs (x.body 2)) x.w.clauses).map fun r =>
      (r.1, (r.2.2.members.all fun t => x.w.tiles.contains t && !x.running.any fun d => d.members.contains t) &&
        (r.2.2.members.isEmpty || x.w.programs.any fun p => p.clause == r.2.2.id))

/-- ROUTES against CLAUSES (R51, R592). -/
def WCtx.routesCross (x : WCtx) : Option WFail :=
  let wins := fun (i t : Nat) => (x.w.routes.take (i + 1)).countP fun r => r.kind == 2 && (r.src == t || r.dst == t)
  x.fails 3 stWeaveShape <|
    (withRecs (recsOf (x.body 3) 8 16 (leAt (x.body 3) 0 4)) x.w.routes).mapIdx fun i r =>
      (r.1, match x.w.clause r.2.2.clause with
        | none => false
        | some c =>
          r.2.2.kind != 2 || (c.members.contains r.2.2.src && c.members.contains r.2.2.dst &&
            decide (wins i r.2.2.src ≤ 4) && decide (wins i r.2.2.dst ≤ 4)))

/-- MCAST against CLAUSES and the running clauses (R76, R592). -/
def WCtx.mcastCross (x : WCtx) : Option WFail :=
  x.fails 4 stWeaveShape <|
    (withRecs (recsOf (x.body 4) 8 16 (leAt (x.body 4) 0 4)) x.w.mcast).map fun r =>
      (r.1, (x.w.clause r.2.2.clause).isSome &&
        !((x.old.map (·.mcast)).getD []).any fun t => t.tree == r.2.2.tree && x.runs t.clause)

/-- FOLDS against CLAUSES and the running clauses (R76, R592). -/
def WCtx.foldsCross (x : WCtx) : Option WFail :=
  x.fails 5 stWeaveShape <|
    (withRecs (recsOf (x.body 5) 8 16 (leAt (x.body 5) 0 4)) x.w.folds).map fun r =>
      (r.1, (x.w.clause r.2.2.clause).isSome &&
        !((x.old.map (·.folds)).getD []).any fun t => t.slot == r.2.2.slot && x.runs t.clause)

/-- Whether a tile record of a running clause names a β table (R56). -/
def WCtx.tableHeld (x : WCtx) (id : Nat) : Bool :=
  ((x.old.map (·.osier)).getD []).any fun o => o.betaTable == id && x.running.any fun c => c.members.contains o.tile

/-- OSIER against CLAUSES and itself (R55, R56, R76). -/
def WCtx.osierCross (x : WCtx) : Option WFail :=
  let b := x.body 6
  let has := fun t => x.w.osier.any fun o => o.tile == t
  x.fails 6 stWeaveShape <|
    ((withRecs (tableRecs b (leAt b 2 2) (leAt b 8 8)) x.w.tables).map fun r => (r.1, !x.tableHeld r.2.2.id)) ++
      ((withRecs (recsOf b (leAt b 16 8) osierSize (leAt b 0 2)) x.w.osier).map fun r =>
        (r.1, (x.w.owner r.2.2.tile).isSome)) ++
      (withRecs (recsOf b (leAt b 24 8) 12 (leAt b 4 4)) x.w.bridges).map fun r =>
        (r.1, has r.2.2.ta && has r.2.2.tb && x.w.owner r.2.2.ta == x.w.owner r.2.2.tb)

/-- The ANCHORS records with their offsets. -/
def WCtx.anchorList (x : WCtx) : List (Nat × List Byte × AnchorRec) :=
  let b := x.body 7
  withRecs (anchorRecs b (min (leAt b 0 4) 512) 0x40) x.w.anchors

/-- Whether a record's anchors lie on a tile that carries an OSIER record, in strands that it has (R57). -/
def Weave.anchorsPlaced (w : Weave) (a : AnchorRec) : Bool :=
  a.count == 0 || match w.osier.find? fun o => o.tile == a.tile with
    | none => false
    | some o => (a.strands.take a.count).all (· < o.strandCount)

/-- ANCHORS against CLAUSES and OSIER (R57). -/
def WCtx.anchorsCross (x : WCtx) : Option WFail :=
  x.fails 7 stWeaveShape <| x.anchorList.map fun r => (r.1, (x.w.owner r.2.2.tile).isSome && x.w.anchorsPlaced r.2.2)

/-- PROGRAMS against CLAUSES (R58). -/
def WCtx.programsCross (x : WCtx) : Option WFail :=
  x.fails 8 stWeaveShape <|
    (withRecs (recsOf (x.body 8) 8 16 (leAt (x.body 8) 0 4)) x.w.programs).map fun r => (r.1, (x.w.clause r.2.2.clause).isSome)

/-- Whether two regions may stand together (R59). -/
def Region.apart (a b : Region) : Bool :=
  decide (a.base + a.len ≤ b.base) || decide (b.base + b.len ≤ a.base) || (a.kind == 1 && b.kind == 1)

/-- MEMPLAN against itself and the regions that stay (R59, R76). -/
def WCtx.memplanCross (x : WCtx) : Option WFail :=
  x.fails 9 stWeaveShape <|
    (withRecs (recsOf (x.body 9) 8 32 (leAt (x.body 9) 0 4)) x.w.memplan).mapIdx fun i r =>
      let g := r.2.2
      let others := x.w.memplan.take i ++ x.keptRegions
      (r.1, others.all fun h => g.apart h && g.id != h.id && !(g.kind == h.kind && (g.kind == 3 || g.kind == 4)))

/-- PGKEYS against the installed ones of running clauses (R76). -/
def WCtx.pgkeysCross (x : WCtx) : Option WFail :=
  let held := fun (k : Nat) => ((x.old.map (·.pgkeys)).getD []).any fun e =>
    e.slot == k && x.running.any fun c => e.mask.getLsbD c.id
  x.fails 0xA stWeaveShape <| (keyRecs (x.body 0xA)).map fun r => (r.1, !(x.w.isPartial && held (byteAt r.2 0)))

/-- TALLY: its fields, and its region among MEMPLAN's. -/
def WCtx.tallyCross (x : WCtx) : Option WFail :=
  let d := leAt (x.body 0xB) 2 2
  x.fails 0xB stWeaveShape [(0, d == 0xFFFF || x.w.memplan.any fun r => r.id == d && r.kind == 4)]

/-- POLICY of a partial weave against the installed one (R76). -/
def WCtx.policyCross (x : WCtx) : Option WFail :=
  x.fails 0xD stWeaveShape [(0, !x.w.isPartial || (x.old.map (·.policy)).getD {} == x.w.policy)]

/-- Check 13. -/
def WCtx.check13 (x : WCtx) : Option WFail :=
  firstFail
    [x.tilemap, x.clausesSec, x.routesSec, x.mcastSec, x.foldsSec, x.osierSec, x.anchorsSec, x.programsSec, x.memplanSec,
     x.pgkeysSec, x.fails 0xB stWeaveShape [(0, tallyBodyOk (x.body 0xB))], x.linksSec, x.policySec, x.clausesCross,
     x.fails 1 stWeaveShape [(0, x.w.tiles.all fun t => (x.w.owner t).isSome)], x.routesCross, x.mcastCross, x.foldsCross,
     x.osierCross, x.anchorsCross, x.programsCross, x.memplanCross, x.pgkeysCross, x.tallyCross, x.policyCross]

/-! ## Check 14: strands (R54, R57) -/

/-- A tile record's strands and codes. -/
def OsierRec.strandsOk (o : OsierRec) : Bool :=
  let st := o.strands.toArray
  decide (1 ≤ o.strandCount) && decide (o.strandCount ≤ 8) && o.strands.all (· < o.strandCount) &&
    o.codes.all fun c => st.getD (c.1 / 512) 0 != st.getD (c.1 % 512) 0

/-- A bridge's strands. -/
def Weave.bridgeOk (w : Weave) (b : Bridge) : Bool :=
  let st := fun t u => ((w.osier.find? fun o => o.tile == t).map fun o => o.strands.getD u 0).getD 0
  b.code == 0 || st b.ta b.ua != st b.tb b.ub

/-- Whether an ANCHORS record couples no two units of one strand (R57). -/
def Weave.anchorStrandsOk (w : Weave) (a : AnchorRec) : Bool :=
  match w.osier.find? fun o => o.tile == a.tile with
  | none => true
  | some o =>
    let st := fun (j : Nat) => if j < 512 then o.strands.getD j 0 else a.strands.getD (j - 512) 0
    (List.range a.count).all fun p =>
      ((a.coef.drop (p * (512 + a.count))).take (512 + a.count)).zipIdx.all fun c => c.1 == 0 || st c.2 != a.strands.getD p 0

/-- Check 14. -/
def WCtx.check14 (x : WCtx) : Option WFail :=
  let b := x.body 6
  firstFail
    [x.fails 6 stWeaveStrand <|
      ((withRecs (recsOf b (leAt b 16 8) osierSize (leAt b 0 2)) x.w.osier).map fun r => (r.1, r.2.2.strandsOk)) ++
        (withRecs (recsOf b (leAt b 24 8) 12 (leAt b 4 4)) x.w.bridges).map fun r => (r.1, x.w.bridgeOk r.2.2),
     x.fails 7 stWeaveStrand <| x.anchorList.map fun r => (r.1, x.w.anchorStrandsOk r.2.2)]

/-! ## Check 15: trees (R52, R53, R327, R335) -/

/-- Whether the parent chain from entry i reaches the root within n steps. -/
def chainOk (l : List TreeNode) : Nat → Nat → Bool
  | 0, _ => false
  | n + 1, i =>
    match l[i]? with
    | none => false
    | some e => e.parent == 0xFFFF || chainOk l n e.parent

/-- R52. -/
def treeOk (l : List TreeNode) : Bool :=
  l.countP (·.parent == 0xFFFF) == 1 && l.all (fun e => e.parent == 0xFFFF || decide (e.parent < l.length)) &&
    decide ((l.map (·.node)).Nodup) && (List.range l.length).all (chainOk l l.length)

/-- R53: every tile node a member; a port only as a link node or as a root of the kind allowed. -/
def treeNodesOk (members : List Nat) (isFold : Bool) (l : List TreeNode) : Bool :=
  l.all fun e =>
    if isTileNode e.node then members.contains e.node
    else (linkOfNode e.node).isSome || (e.parent == 0xFFFF && (!isFold || decide (e.node < 0x800C)))

/-- The members of the clause a record names. -/
def Weave.membersOf (w : Weave) (c : Nat) : List Nat := ((w.clause c).map (·.members)).getD []

/-- R327: a synchronisation tree holds every member and no port, one to a clause. -/
def Weave.syncOk (w : Weave) (i : Nat) (m : McastRec) : Bool :=
  m.network != 2 ||
    (m.nodes.all (fun e => isTileNode e.node) && (w.membersOf m.clause).all (fun t => m.nodes.any fun e => e.node == t) &&
      (w.mcast.take i).all fun k => k.network != 2 || k.clause != m.clause)

/-- R335: a fold that lands in a stack is of kind 0 or 1. -/
def FoldRec.stackOk (r : FoldRec) : Bool :=
  decide (r.kind ≤ 1) || !r.nodes.any fun e => e.parent == 0xFFFF && decide (0x8000 ≤ e.node) && decide (e.node < 0x800C)

/-- Check 15. -/
def WCtx.check15 (x : WCtx) : Option WFail :=
  firstFail
    [x.fails 4 stWeaveTree <|
      (withRecs (recsOf (x.body 4) 8 16 (leAt (x.body 4) 0 4)) x.w.mcast).mapIdx fun i r =>
        (r.1, treeOk r.2.2.nodes && treeNodesOk (x.w.membersOf r.2.2.clause) false r.2.2.nodes && x.w.syncOk i r.2.2),
     x.fails 5 stWeaveTree <|
      (withRecs (recsOf (x.body 5) 8 16 (leAt (x.body 5) 0 4)) x.w.folds).map fun r =>
        (r.1, treeOk r.2.2.nodes && treeNodesOk (x.w.membersOf r.2.2.clause) true r.2.2.nodes && r.2.2.stackOk)]

/-! ## Check 16: placement -/

/-- Whether a node lies in the East half (R17, R19, R48). -/
def nodeEast (n v : Nat) : Bool :=
  if v < 0x8000 then decide (n / 2 ≤ v)
  else (decide (0x8006 ≤ v) && decide (v ≤ 0x800B)) || (decide (0x8020 ≤ v) && decide (v ≤ 0x802F)) || v == 0x8032

/-- Whether a link is named to some use by the LINKS section in force. -/
def linkNamed (links : Option LinksRec) (n : Nat) : Bool :=
  match links with
  | some l => l.roles.getD n 0 != 0
  | none => false

/-- Whether a node may be used now. -/
def nodePlaced (closed : Bool) (n : Nat) (links : Option LinksRec) (v : Nat) : Bool :=
  v == 0xFFFF || (!(closed && nodeEast n v) && match linkOfNode v with
    | some k => linkNamed links k
    | none => true)

/-- Check 16 (R65), under the present half power states. -/
def WCtx.check16 (x : WCtx) (closed : Bool) : Option WFail :=
  let links := if x.w.isPartial then x.old.bind (·.links) else x.w.links
  let ok := nodePlaced closed x.nTiles links
  let tree := fun (l : List TreeNode) => l.all fun e => ok e.node
  firstFail
    [x.fails 2 stWeaveRoute <|
      (withRecs (clauseRecs (x.body 2)) x.w.clauses).map fun r => (r.1, r.2.2.members.all ok),
     x.fails 3 stWeaveRoute <|
      (withRecs (recsOf (x.body 3) 8 16 (leAt (x.body 3) 0 4)) x.w.routes).map fun r => (r.1, ok r.2.2.src && ok r.2.2.dst),
     x.fails 4 stWeaveRoute <|
      (withRecs (recsOf (x.body 4) 8 16 (leAt (x.body 4) 0 4)) x.w.mcast).map fun r => (r.1, tree r.2.2.nodes),
     x.fails 5 stWeaveRoute <|
      (withRecs (recsOf (x.body 5) 8 16 (leAt (x.body 5) 0 4)) x.w.folds).map fun r => (r.1, tree r.2.2.nodes),
     x.fails 0xC stWeaveRoute <|
      (recsOf (x.body 0xC) 0x40 8 (leAt (x.body 0xC) 2 2)).map fun e =>
        (e.1, (List.range 32).all fun n => !bitAt (leAt e.2 4 4) n || linkNamed links n)]

/-- Checks 13 to 16. -/
def WCtx.content (x : WCtx) (closed : Bool) : Option WFail := firstFail [x.check13, x.check14, x.check15, x.check16 closed]

end Sys2Proof.Machine
end

