-- ==== Sys2Proof/Machine/TallyOps.lean ====
section
/-! DEFINITION. Tally settings taken into use, and the tally ring's header (R535-R537, R545, R546). -/
namespace Sys2Proof.Machine

/-- The tally ring (R59). -/
def State.tallyRing (s : State) : Option Region := s.regions.find? fun r => r.kind == 4 && r.id == s.tly.cfg.region

/-- Bytes of one dump (R546). -/
def State.dumpBytes (s : State) : Nat := 0x40 + s.nTiles * 8 * (if s.tly.cfg.dedicated then 96 else 8) + 1600

/-- What Jaset writes of the ring's header; the host's consumed count is left (R546). -/
def State.tallyHeader (s : State) : State :=
  match s.tallyRing with
  | none => s
  | some r =>
    let s := s.ownWrite r.base ([0x4E, 0x54, 0x59, 0x31, 1, 0, if s.tly.cfg.dedicated then 1 else 0, 0] ++
      leBytes 8 s.tly.ringWrite)
    s.ownWrite (r.base + 0x18) (leBytes 8 s.tly.ringDropped ++ leBytes 4 s.dumpBytes)

/-- Whether counter k counts the same event under new settings as before (R536). -/
def TallyCfg.keeps (old new : TallyCfg) (k : Nat) : Bool :=
  old.dedicated = new.dedicated && (new.dedicated || old.events.getD k 0 == new.events.getD k 0)

/-- The counter of an event under some settings; none where none counts it (R535). -/
def TallyCfg.counterOf (c : TallyCfg) (e : Nat) : Option Nat :=
  if c.dedicated then some e else firstIdx (c.events.take 8) (· == e)

/-- A tile's counters under new settings: a counter whose event stays keeps its count (R536); the ticks not yet assigned start
anew with the counter of event 0x5F, so that they balance (R539). -/
def Tile.reselect (old new : TallyCfg) (T : Tile) : Tile :=
  { T with
    cnt := T.cnt.mapIdx fun k v => if old.keeps new k then v else 0
    pendTicks := if ((new.counterOf 0x5F).map fun k => old.keeps new k).getD true then T.pendTicks else 0 }

/-- A tile's counters cleared, with the ticks not yet assigned (R536, R539; log entry 104, DEDUCED). -/
def Tile.clearCounts (T : Tile) : Tile := { T with cnt := List.replicate 96 0, pendTicks := 0 }

/-- Whether rim router r stands in the East half (R541). -/
def rimEast (r : Nat) : Bool := decide (40 ≤ r ∧ r < 80 ∨ 90 ≤ r)

/-- Tally settings installed (R537, R543, R545): they take effect now. -/
def State.installTally (s : State) (cfg : TallyCfg) : State :=
  let s := { s with tiles := s.tiles.map (Tile.reselect s.tly.cfg cfg) }
  { s with tly := { s.tly with cfg := cfg, dumping := false, taken := 0, ringWrite := 0, ringDropped := 0, seq := 0,
                               since := s.timer } }.tallyHeader

end Sys2Proof.Machine
end

