-- ==== Sys2Proof/Machine/WeaveApply.lean ====
section
/-! DEFINITION. The installation of a weave and of a partial weave, and what is left when it is cut short (R22, R23, R62,
R70-R77, R189, R346, R371, R383, R433). -/
namespace Sys2Proof.Machine

/-! ## What stays and what joins (R75, R77) -/

/-- An installed weave without what only the clauses that go own (R77). -/
def Weave.drop (w : Weave) (gone : Nat → Bool) : Weave :=
  let kept := w.clauses.filter fun c => !gone c.id
  let on := fun (t : Nat) => kept.any fun c => c.members.contains t
  let os := w.osier.filter fun o => on o.tile
  { w with
    tiles := w.tiles.filter on
    clauses := kept
    routes := w.routes.filter fun r => !gone r.clause
    mcast := w.mcast.filter fun r => !gone r.clause
    folds := w.folds.filter fun r => !gone r.clause
    tables := w.tables.filter fun b => os.any fun o => o.betaTable == b.id
    osier := os
    bridges := w.bridges.filter fun b => on b.ta
    anchors := w.anchors.filter fun a => on a.tile
    programs := w.programs.filter fun p => !gone p.clause
    memplan := w.memplan.filter fun r => !onlyOf w.clauses gone r.clauses
    pgkeys := w.pgkeys.filter fun k => !onlyOf w.clauses gone k.mask }

/-- What a partial weave installs, added to what stays (R75). The merged weave's grade_mask holds the grades of both and its
tile_span the larger of the two (log entry 84, DESIGN CHOICE). -/
def Weave.add (w p : Weave) : Weave :=
  { w with
    gradeMask := w.gradeMask &&& p.gradeMask
    tileSpan := max w.tileSpan p.tileSpan
    tiles := (List.range 512).filter fun t => w.tiles.contains t || p.tiles.contains t
    clauses := w.clauses ++ p.installs
    routes := w.routes ++ p.routes
    mcast := w.mcast ++ p.mcast
    folds := w.folds ++ p.folds
    tables := w.tables ++ p.tables
    osier := w.osier ++ p.osier
    bridges := w.bridges ++ p.bridges
    anchors := w.anchors ++ p.anchors
    programs := w.programs ++ p.programs
    memplan := w.memplan ++ p.memplan
    pgkeys := w.pgkeys.filter (fun k => !p.pgkeys.any fun e => e.slot == k.slot) ++ p.pgkeys }

/-! ## Tiles -/

/-- The osier array as an apply leaves it: the record's couplings in bank 0, bank 1 clear, every state −1 (R189, R190). -/
def Osier.install (o : Osier) (r : Option OsierRec) (a : Option AnchorRec) : Osier :=
  let a := a.filter fun (x : AnchorRec) => x.count != 0
  let o := { o.stopRuns with
    present := r.isSome
    strandCount := (r.map fun (x : OsierRec) => x.strandCount).getD 0
    strands := (r.map fun (x : OsierRec) => x.strands).getD []
    betaId := match r with
      | some x => if x.betaTable = 0xFF then 0xFFFF else x.betaTable
      | none => 0xFFFF
    bias := (r.map fun (x : OsierRec) => x.bias).getD (List.replicate 512 0)
    ext := List.replicate 512 0
    st := List.replicate 512 false
    bank0 := match r with
      | some x => { codes := x.codes, scale := x.scale, qerr := qerrOf x.codes }
      | none => Bank.empty
    bank1 := Bank.empty
    bank := false
    idleBad := false
    bsum := List.replicate 512 0
    hasAnchors := a.isSome
    anchorCount := (a.map fun (x : AnchorRec) => x.count).getD 0
    anchorWidth := (a.map fun (x : AnchorRec) => x.width).getD 0
    anchorStrands := (a.map fun (x : AnchorRec) => x.strands).getD []
    anchorBias := (a.map fun (x : AnchorRec) => x.bias).getD []
    anchorCoef := (a.map fun (x : AnchorRec) => x.coef).getD []
    anchorSt := List.replicate ((a.map fun (x : AnchorRec) => x.count).getD 0) false }
  o.sumAnchors

/-- A tile out of its clause: it runs no program (R28). -/
def Tile.leave (T : Tile) : Tile := { T with clause := none, imem := [], entry := 0, os := T.os.install none none }

/-- A tile in a clause of a weave, with its program and its osier and anchor records (R58, R70 step 4). -/
def Tile.join (w : Weave) (t c : Nat) (T : Tile) : Tile :=
  let p := w.programs.find? fun p => p.clause == c
  { T with clause := some c, imem := (p.map (·.code)).getD [], entry := (p.map (·.entry)).getD 0,
           os := T.os.install (w.osier.find? fun o => o.tile == t) (w.anchors.find? fun a => a.tile == t) }

/-- The windows of every tile, direct or by fall-back, as the installed routes declare them (R22, R23, R348). -/
def State.setWindows (s : State) : State :=
  let wins := s.windows
  let ends := fun (t : Nat) => wins.filterMap fun r =>
    if r.src = t then some (neighbourDir (s.physOf t) (s.physOf r.dst))
    else if r.dst = t then some (neighbourDir (s.physOf t) (s.physOf r.src)) else none
  { s with tiles := s.tiles.mapIdx fun t (T : Tile) =>
      { T with winDirect := BitVec.ofNat 4 (ofBits 4 fun d => (ends t).contains (some d))
               winFallback := (ends t).countP (·.isNone) } }

/-! ## Memory plan and keys -/

/-- The exact values of cells in an atomic region that comes, goes or changes are their stored bytes (R346). -/
def State.reatom (s : State) (old new : List Region) : State :=
  let differs := fun (l m : List Region) =>
    l.filter fun r => r.kind == 2 && !m.any fun q => q.kind == 2 && q.base == r.base && q.len == r.len
  let touched := differs old new ++ differs new old
  { s with exact := s.exact.filter fun c => !touched.any fun r => c.meets r.base r.len }

/-- The key-store entries of the PGKEYS slots: those of slots that stay are left, new ones set (R60, R77). -/
def State.setPgKeys (s : State) (stay : Nat → Bool) (keys : List PgKeyRec) : State :=
  let s := { s with sec := { s.sec with
    store := s.sec.store.filter fun e => !(decide (4 ≤ e.k) && decide (e.k < 20)) || stay (e.k - 4) } }
  keys.foldl (fun s k => s.setKey (4 + k.slot) k.key (keyDigest k.key)) s

/-- Installed tables exchanged for those of a weave with new key slots: what an atomic region, a kept digest, a key slot or
a window of the weave before rested on goes with it. -/
def State.exchange (s : State) (w : Option Weave) (keys : List PgKeyRec) : State :=
  let old := s.regions
  let stay := fun (k : Nat) => ((w.map (·.pgkeys)).getD []).any fun e => e.slot == k
  let new := (w.map (·.memplan)).getD []
  let s := { s with weave := { s.weave with installed := w }
                    gloss := { s.gloss with cache := s.gloss.cache.filter fun e =>
                      (old.find? fun (r : Region) => r.id == e.1) == (new.find? fun (r : Region) => r.id == e.1) } }
  ((s.reatom old new).setPgKeys stay keys).setWindows

/-! ## Links -/

/-- A full weave's LINKS in force: links of role 0 stop, the wake set and the device ID stand in GLK_WAKE (R370, R371,
R383). -/
def State.setLinks (s : State) : State :=
  let l := s.weave.installed.bind (·.links)
  { s with
    links := s.links.mapIdx fun n (k : Link) => if s.linkUnused n then k.stop else { k with stopping := false }
    glkWake := { s.glkWake with
      device := BitVec.ofNat 16 s.devId
      enable := BitVec.ofNat 32 (ofBits 32 fun n => ((l.map fun x => x.roles.getD n 0).getD 0) == 2) } }

/-! ## Quiescence (R70, R533) -/

/-- Whether a group of a clause's fold waits anywhere. -/
def State.foldsOut (s : State) (c : Nat) : Bool :=
  s.folds.any fun x =>
    ((s.foldRec x.slot).map fun r => r.clause == c).getD false &&
      (!x.exps.isEmpty || x.nodes.any fun n =>
        !n.own1.isEmpty || !n.held.isEmpty || !n.own2.isEmpty || !n.up1.isEmpty || !n.up2.isEmpty)

/-- Whether a clause is quiescent: nothing running, nothing outstanding, no hold. A fault freeze stops its phrases, and the
clause is quiescent once what it had issued can go no further (R70, R174, R533). -/
def State.quiescent (s : State) (c : Nat) : Bool :=
  let m := s.members c
  !m.any (fun t => (s.tile t).dbg.held || (s.tile t).held || s.mbHeld t) &&
    if s.frozen c then !s.issuedMoves c
    else !s.opsOut c && !s.phrasesOut c && !s.foldsOut c && !m.any fun t => (s.tile t).arr.any fun l => !l.isEmpty

/-! ## The steps of APPLY_WEAVE -/

/-- The samplers that an apply disables, after their requests in progress (R306). -/
def State.applyTks (s : State) (isPartial : Bool) (ends : List Nat) : State :=
  [false, true].foldl (fun s e => if !isPartial || ends.contains (s.tks e).lClause then s.tksStop e else s) s

/-- Step 3: recording stops (R444), samplers are disabled, the clauses that end are reset, their tiles leave. -/
def State.applyClear (s : State) (isPartial : Bool) (ends : List Nat) : State :=
  let s := s.recordStop.applyTks isPartial ends
  let m := ends.flatMap s.members
  let s := ends.foldl (fun s c => s.clauseReset stAborted c) s
  let s := if ends.any fun c => s.replaying (some c) then s.endReplay stAborted else s
  { s with clauses := s.clauses.filter fun x => !ends.contains x.id
           tiles := s.tiles.mapIdx fun t (T : Tile) => if m.contains t then T.leave else T }

/-- The tiles of the clauses that a weave installs take their places. -/
def State.placeTiles (s : State) (w : Weave) : State :=
  { s with
    clauses := s.clauses ++ w.installs.map fun c => ClauseSt.fresh c.id
    tiles := s.tiles.mapIdx fun t (T : Tile) =>
      match w.owner t with
      | some c => T.join w t c
      | none => T }

/-- The spin events of the state reset: every bridge unit of an installed tile that stood at +1 sends one, and its target
applies it, within the apply (R189, R200; log entry 94, DEDUCED). -/
def State.resetSpins (s : State) (w : Weave) (old : Nat → List Bool) : State :=
  let sent := w.tiles.foldl (fun s t =>
    ((List.range 512).filter fun i => (old t).getD i false).foldl (fun s i =>
      s.sendSpin t (s.tile t).os.phase (s.tile t).os.phase i false) s) { s with spins := [] }
  { sent.spins.foldl State.applySpin sent with spins := s.spins }

/-- The bridge sums of the installed tiles, to match their states, which have left those they had before (R189). -/
def State.placeSums (s : State) (w : Weave) (old : Nat → List Bool) : State :=
  w.tiles.foldl (fun s t => s.modOs t fun o => { o with bsum := s.bridgeSums t }) (s.resetSpins w old)

/-- Steps 4 to 6 for a full weave. -/
def State.installFull (s : State) (w : Weave) (old : Nat → List Bool) : State :=
  let s := ((s.exchange (some { w with clauses := w.installs }) w.pgkeys).placeTiles w).placeSums w old
  let s := (s.installTally (w.tally.getD TallyCfg.reset)).setLinks
  { s with weave := { s.weave with staged := none, merged := false, locked := w.policy.lock == 1, digest := w.bodyDigest,
                                   lastId := w.weaveId } }

/-- Steps 4 to 6 for a partial weave: TALLY, LINKS, POLICY and the lock stay (R77). A partial weave that removes the last
clause leaves a weave installed that has none (R49, R75; against R25: log entry 83, DESIGN CHOICE). -/
def State.installPartial (s : State) (w : Weave) (kept : Weave) (old : Nat → List Bool) : State :=
  let s := ((s.exchange (some (kept.add w)) w.pgkeys).placeTiles w).placeSums w old
  { s with weave := { s.weave with staged := none, merged := true, digest := shake256 64 (s.weave.digest ++ w.bodyDigest) } }

/-- An apply cut short by an uncorrected error in the staged bytes (R73). -/
def State.applyStruck (s : State) (kept : Option Weave) : State :=
  let s := s.exchange kept []
  match kept with
  | some _ => { s with weave := { s.weave with staged := none, merged := true } }
  | none =>
    let s := (s.installTally TallyCfg.reset).setLinks
    { s with weave := { s.weave with staged := none, merged := false, locked := false, digest := zeros 64 } }

end Sys2Proof.Machine
end

