-- ==== Sys2Proof/Machine/WeaveEncode.lean ====
section
/-! DEFINITION. The installed weave written out again as an unsigned full weave (R78-R81). -/
namespace Sys2Proof.Machine

/-- Where lists of given lengths lie from a start. -/
def offsets (start : Nat) (lens : List Nat) : List Nat := (lens.foldl (fun a n => (a.1 ++ [a.2], a.2 + n)) ([], start)).1

/-- A section: its header, its body, its padding. -/
def secBytes (typ : Nat) (body : List Byte) : List Byte :=
  leBytes 2 typ ++ leBytes 2 1 ++ zeros 4 ++ leBytes 8 body.length ++ shake256 16 body ++
    fitTo (roundUp (32 + body.length) 64 - 32) body

/-- A section that is left out when it holds nothing. -/
def secIf (typ : Nat) (present : Bool) (body : List Byte) : List (List Byte) := if present then [secBytes typ body] else []

/-- Records of 16 bytes after a u32 count, then the lists they point to. -/
def listSection (head : List Byte) (lists : List (List Byte)) (record : Nat → Nat → List Byte) : List Byte :=
  let offs := offsets (8 + 16 * lists.length) (lists.map List.length)
  head ++ (offs.mapIdx fun i o => record i o).flatten ++ lists.flatten

/-- TILEMAP. -/
def encTilemap (w : Weave) : List Byte :=
  leBytes 2 w.tileSpan ++ leBytes 2 w.tiles.length ++ zeros 4 ++
    tab 64 fun k => BitVec.ofNat 8 (ofBits 8 fun b => w.tiles.contains (8 * k + b))

/-- CLAUSES. -/
def encClauses (l : List ClauseRec) : List Byte :=
  listSection (leBytes 1 l.length ++ zeros 7) (l.map fun c => c.members.flatMap (leBytes 2)) fun i o =>
    let c := l.getD i { id := 0, gangA := 0, gangB := 0, members := [] }
    leBytes 1 c.id ++ zeros 1 ++ leBytes 1 c.gangA ++ leBytes 1 c.gangB ++ leBytes 2 c.members.length ++ zeros 2 ++
      leBytes 4 o ++ zeros 4

/-- ROUTES. -/
def encRoutes (l : List RouteRec) : List Byte :=
  leBytes 4 l.length ++ zeros 4 ++ l.flatMap fun r =>
    leBytes 1 r.kind ++ leBytes 1 r.clause ++ leBytes 1 r.network ++ leBytes 1 r.vc ++ leBytes 1 r.express ++ zeros 1 ++
      leBytes 2 r.src ++ leBytes 2 r.dst ++ zeros 6

/-- A node list. -/
def encNodes (l : List TreeNode) : List Byte := l.flatMap fun e => leBytes 2 e.node ++ leBytes 2 e.parent

/-- MCAST. -/
def encMcast (l : List McastRec) : List Byte :=
  listSection (leBytes 4 l.length ++ zeros 4) (l.map fun m => encNodes m.nodes) fun i o =>
    let m := l.getD i { tree := 0, clause := 0, network := 0, nodes := [] }
    leBytes 2 m.tree ++ leBytes 1 m.clause ++ leBytes 1 m.network ++ leBytes 2 m.nodes.length ++ zeros 2 ++ leBytes 4 o ++
      zeros 4

/-- FOLDS. -/
def encFolds (l : List FoldRec) : List Byte :=
  listSection (leBytes 4 l.length ++ zeros 4) (l.map fun m => encNodes m.nodes) fun i o =>
    let m := l.getD i { slot := 0, clause := 0, kind := 0, scale := 0, nodes := [] }
    leBytes 2 m.slot ++ leBytes 1 m.clause ++ leBytes 1 m.kind ++ leBytes 1 (unsigned 8 m.scale) ++ zeros 1 ++
      leBytes 2 m.nodes.length ++ leBytes 4 o ++ zeros 4

/-- Pairs of nibbles as bytes, the even one low. -/
def encNibbles (l : List Nat) : List Byte :=
  tab (l.length / 2) fun k => BitVec.ofNat 8 (l.getD (2 * k) 0 + 16 * l.getD (2 * k + 1) 0)

/-- A β table, padded to 64 bytes. -/
def encTable (b : BetaTable) : List Byte :=
  let l := leBytes 1 b.id ++ zeros 1 ++ leBytes 2 b.betas.length ++ leBytes 4 b.roundsPer ++ zeros 8 ++
    b.betas.flatMap fun v => leBytes 4 v.toNat
  fitTo (roundUp l.length 64) l

/-- An OSIER tile record. -/
def encOsierTile (o : OsierRec) : List Byte :=
  leBytes 2 o.tile ++ leBytes 1 o.strandCount ++ leBytes 1 o.betaTable ++ zeros 4 ++ encNibbles o.strands ++
    (o.bias.flatMap fun v => leBytes 2 (unsigned 16 v)) ++ encNibbles o.scale ++ zeros 24 ++ o.codes.read 0 0x40000

/-- OSIER. -/
def encOsier (w : Weave) : List Byte :=
  let tables := w.tables.flatMap encTable
  let tiles := 0x40 + tables.length
  leBytes 2 w.osier.length ++ leBytes 2 w.tables.length ++ leBytes 4 w.bridges.length ++ leBytes 8 0x40 ++ leBytes 8 tiles ++
    leBytes 8 (tiles + osierSize * w.osier.length) ++ zeros 32 ++ tables ++ w.osier.flatMap encOsierTile ++
    w.bridges.flatMap fun b =>
      leBytes 2 b.ta ++ leBytes 2 b.tb ++ leBytes 2 b.ua ++ leBytes 2 b.ub ++ leBytes 1 (unsigned 8 b.code) ++
        leBytes 1 b.scale ++ zeros 2

/-- An ANCHORS record. -/
def encAnchor (a : AnchorRec) : List Byte :=
  let k := a.width / 8
  let data := a.strands.map (BitVec.ofNat 8) ++ (a.bias.flatMap fun v => leBytes k (unsigned a.width v)) ++
    a.coef.flatMap fun v => leBytes k (unsigned a.width v)
  let len := roundUp (8 + data.length) 64
  fitTo len (leBytes 2 a.tile ++ leBytes 1 a.count ++ leBytes 1 a.width ++ leBytes 4 len ++ data)

/-- ANCHORS. -/
def encAnchors (l : List AnchorRec) : List Byte := leBytes 4 l.length ++ zeros 60 ++ l.flatMap encAnchor

/-- PROGRAMS. -/
def encPrograms (l : List ProgRec) : List Byte :=
  listSection (leBytes 4 l.length ++ zeros 4) (l.map fun p => p.code.flatMap fun i => leBytes 8 i.toNat) fun i o =>
    let p := l.getD i { clause := 0, code := [], entry := 0 }
    leBytes 1 p.clause ++ zeros 3 ++ leBytes 4 p.code.length ++ leBytes 4 o ++ leBytes 4 p.entry

/-- MEMPLAN. -/
def encMemplan (l : List Region) : List Byte :=
  leBytes 4 l.length ++ zeros 4 ++ l.flatMap fun r =>
    leBytes 2 r.id ++ leBytes 1 r.kind ++ zeros 5 ++ leBytes 8 r.clauses.toNat ++ leBytes 8 r.base ++ leBytes 8 r.len

/-- The key digest that a readback gives of a slot: zeros once its key is erased (R79). -/
def State.slotDigest (s : State) (k : PgKeyRec) : List Byte :=
  if s.hasKey (4 + k.slot) then keyDigest k.key else zeros 16

/-- PGKEYS, without key material (R79). -/
def State.encPgkeys (s : State) (l : List PgKeyRec) : List Byte :=
  leBytes 4 l.length ++ zeros 4 ++ l.flatMap fun k =>
    leBytes 1 k.slot ++ zeros 7 ++ leBytes 8 k.mask.toNat ++ zeros 12 ++ s.slotDigest k ++ zeros 20

/-- TALLY. -/
def encTally (c : TallyCfg) : List Byte :=
  leBytes 1 (b2n c.dedicated) ++ zeros 1 ++ leBytes 2 c.region ++ leBytes 4 c.period ++ c.events.flatMap (leBytes 2) ++ zeros 8

/-- LINKS. -/
def encLinks (l : LinksRec) : List Byte :=
  leBytes 2 l.devId ++ leBytes 2 l.routes.length ++ zeros 4 ++ l.roles.map (BitVec.ofNat 8) ++ l.fwNext.flatMap (leBytes 2) ++
    zeros 16 ++ l.routes.flatMap fun e => leBytes 2 e.first ++ leBytes 2 e.last ++ leBytes 4 e.mask.toNat

/-- POLICY. -/
def encPolicy (p : Policy) : List Byte :=
  [p.det, p.loadBalance, p.tallyVisible, p.freeRun, p.staleCal, p.lock, p.maxLoose].map (BitVec.ofNat 8) ++ zeros 25

/-- A header over a body, as a readback gives it: unsigned, full, freshly digested (R78). -/
def encHeader (gradeMask sections span : Nat) (weaveId body : List Byte) : List Byte :=
  let h := [0x4E, 0x57, 0x56, 0x31] ++ leBytes 2 1 ++ leBytes 2 0 ++ leBytes 2 gradeMask ++ leBytes 2 sections ++
    leBytes 2 span ++ zeros 2 ++ leBytes 8 (0x100 + body.length) ++ leBytes 8 body.length ++ zeros 16 ++
    shake256 64 body ++ fitTo 16 weaveId ++ zeros 112
  h ++ shake256 16 h

/-- The sections of the merged weave. -/
def State.encSections (s : State) (w : Weave) : List (List Byte) :=
  [secBytes 1 (encTilemap w), secBytes 2 (encClauses w.clauses), secBytes 3 (encRoutes w.routes)] ++
    secIf 4 (!w.mcast.isEmpty) (encMcast w.mcast) ++ secIf 5 (!w.folds.isEmpty) (encFolds w.folds) ++
    secIf 6 (!(w.osier.isEmpty && w.tables.isEmpty && w.bridges.isEmpty)) (encOsier w) ++
    secIf 7 (!w.anchors.isEmpty) (encAnchors w.anchors) ++
    [secBytes 8 (encPrograms w.programs), secBytes 9 (encMemplan w.memplan)] ++
    secIf 0xA (!w.pgkeys.isEmpty) (s.encPgkeys w.pgkeys) ++
    secIf 0xB (w.tally.isSome || s.tly.cfg != TallyCfg.reset) (encTally s.tly.cfg) ++
    secIf 0xC w.links.isSome ((w.links.map encLinks).getD []) ++ [secBytes 0xD (encPolicy w.policy)]

/-- The body of a weave installed by one full apply, its PGKEYS records without their keys (R79, R80): as loaded, byte for
byte, its TALLY section too where a TALLY_CFG has replaced the settings since (log entry 86, DEDUCED). -/
def State.rawBody (s : State) (w : Weave) : List Byte :=
  let body := w.raw.drop 0x100
  match weaveSecs w.raw with
  | .error _ => body
  | .ok l =>
    match secOf l 0xA with
    | none => body
    | some x =>
      let new := x.body.take 8 ++ (keyRecs x.body).flatMap fun r =>
        slice r.2 0 16 ++ zeros 12 ++
          (((w.pgkeys.find? fun k => k.slot == byteAt r.2 0).map s.slotDigest).getD (zeros 16)) ++ zeros 20
      let new := new ++ x.body.drop new.length
      let o := x.off - 0x100
      body.take (o + 16) ++ shake256 16 new ++ new ++ body.drop (o + 32 + new.length)

/-- The readback's bytes (R78-R80). A merged weave bears the weave_id of the last full weave; its sections carry no flag,
and sections that Jaset ignored are left out (log entry 84, DESIGN CHOICE). -/
def State.readback (s : State) (w : Weave) : List Byte :=
  if s.weave.merged then
    let l := s.encSections w
    encHeader w.gradeMask l.length w.tileSpan s.weave.lastId l.flatten ++ l.flatten
  else
    let b := s.rawBody w
    encHeader w.gradeMask (leAt w.raw 0x0A 2) w.tileSpan w.weaveId b ++ b

/-- A readback finished with a status. -/
def State.rbEnd (s : State) (status : Nat) : State :=
  { s with weave := { s.weave with rbBusy := false, rbDone := true, rbStatus := status } }

/-- The readback (R78, R81). A buffer that is not aligned, does not lie in HBM below Jaset's own part, or lies in a sleeping
half, takes nothing, and the readback reports NO_DATA (log entry 87, DESIGN CHOICE). -/
def State.doReadback (s : State) : State :=
  match s.weave.installed with
  | none => s.rbEnd stWeaveNone
  | some w =>
    let l := s.readback w
    let a := s.weave.rbAddr.toNat
    let n := s.weave.rbLen.toNat
    let put := if n < l.length then l.take (if n < 256 then 0 else 256) else l
    if a % 64 ≠ 0 || !userHbm a put.length || s.hbmAsleep a put.length then s.rbEnd stNoData
    else ((s.hbmWrite a put).1).rbEnd (if n < l.length then stNoData else stOK)

end Sys2Proof.Machine
end

