-- ==== Sys2Proof/Machine/Weave.lean ====
section
/-! DEFINITION. LOAD_WEAVE, APPLY_WEAVE and the readback (R64-R82, R593). The staged copy itself is kept as the weave it
spells; an error that meets it is the command's operand (log entry 27, DESIGN CHOICE). -/
namespace Sys2Proof.Machine

/-! ## LOAD_WEAVE -/

/-- LOAD_WEAVE finished: load_status holds its status. -/
def State.loadEnd (s : State) (id status d0 d1 : Nat) : State :=
  { s with weave := { s.weave with loadStatus := status } }.finish id status d0 d1 0

/-- LOAD_WEAVE finished with a failed check. -/
def State.loadFail (s : State) (id : Nat) (f : WFail) : State := s.loadEnd id f.1 f.2.1 f.2.2

/-- The struck line of the staging area: one that the command meets, or its first where its stack is offline (R59,
R593). -/
def State.stagingStruck (s : State) (strike : Option Nat) : Option Nat :=
  if (s.stack 11).offline then some hbmUserEnd
  else (strike.filter fun a => decide (hbmUserEnd ≤ a) && decide (a < hbmEnd)).map fun a => a / 64 * 64

/-- The report of a struck line of the staging area. -/
def State.noteStaging (s : State) (a : Nat) : State := s.noteUncorr (a / 64)

/-- Checks 2 to 5 of a header. -/
def State.hdrFail (s : State) (len : Nat) (h : List Byte) : Option Nat :=
  ((hdrCheck2 h).or (hdrCheck3 s.fuse.grade s.nTiles h)).or ((hdrCheck4 len h).or (hdrCheck5 s.weave h))

/-- Checks 6 and 7: the signature, verified on two paths under the owner key whose entry passes, or its absence (R44, R456,
R484). -/
def State.sigFail (s : State) (h sig : List Byte) : Option WFail × State :=
  if hdrSigned h then
    let s := s.checkEntry 3
    match (s.key 3).map (·.key) with
    | none => (some (stAuth, 0, 0x80), s)
    | some pub =>
      if keyId pub ≠ slice h 0x80 32 then (some (stAuth, 0, 0x80), s)
      else
        let (ok, s) := s.twice .signature (Config.falconVerify pub h (sig.take (leAt h 0x28 4)))
        (if ok then none else some (stAuth, 0, leAt h 0x20 8), s)
  else (if s.weave.requireSig then some (stAuth, 0, 6) else none, s)

/-- Check 12: the session key, whose entry must pass, and the records' tags, each compared on two paths (R60, R456,
R484). -/
def State.keysFail (s : State) (l : List WSec) : Option WFail × State :=
  match secOf l 0xA with
  | none => (none, s)
  | some x =>
    let s := s.checkEntry 1
    match check12 l ((s.key 1).map (·.key)), keyRecs x.body with
    | some f, _ => (some f, s)
    | none, [] => (none, s)
    | none, r :: _ => (if s.agrees .tag then none else some (stAuth, 0xA, x.off + 32 + r.1), s.disagree .tag)

/-- Checks 13 to 16 of a weave under this device's present state. -/
def State.weaveCtx (s : State) (l : List WSec) (w : Weave) : WCtx :=
  { secs := l, w := w, nTiles := s.nTiles, old := s.weave.installed }

/-- Checks 8 to 16 of a staged copy: the weave, or the first failure. -/
def State.checkBody (s : State) (raw : List Byte) : Except WFail Weave × State :=
  if shake256 64 (slice raw 0x100 (hdrBody raw)) ≠ slice raw 0x30 64 then (.error (stWeaveDigest, 0, 0x30), s)
  else
    match weaveSecs raw with
    | .error f => (.error f, s)
    | .ok l =>
      match firstFail [check10 l, check11 (hdrPartial raw) l] with
      | some f => (.error f, s)
      | none =>
        match s.keysFail l with
        | (some f, s) => (.error f, s)
        | (none, s) =>
          let w := parseWeave raw l ((s.key 1).map (·.key))
          match (s.weaveCtx l w).content (s.halfClosed true) with
          | some f => (.error f, s)
          | none => (.ok w, s)

/-- From step 4 on: the body copied to staging and checked (R67, R593); a signed weave that passes ends the run of
authentication failures (R476). -/
def State.loadBody (s : State) (id a : Nat) (h sig : List Byte) (strike : Option Nat) : State :=
  let (body, s, x) := s.hbmRead (a + 0x100) (hdrBody h)
  match x, s.stagingStruck strike with
  | some line, _ => s.loadEnd id stUncorr line 0
  | none, some line => (s.noteStaging line).loadEnd id stUncorr line 0
  | none, none =>
    match s.checkBody (h ++ (body ++ sig)) with
    | (.error f, s) => s.loadFail id f
    | (.ok w, s) =>
      let s := { s with weave := { s.weave with staged := some w } }
      let s := if hdrSigned h then { s with alm := { s.alm with authRun := 0 } } else s
      s.loadEnd id stOK 0 0

/-- LOAD_WEAVE from step 3 on: the weave staged before is discarded (R67). -/
def State.loadAccepted (s : State) (id a len : Nat) (h : List Byte) (strike : Option Nat) : State :=
  let s := { s with weave := { s.weave with staged := none } }
  let so := leAt h 0x20 8
  let (sig, s, x) := if hdrSigned h then s.hbmRead (a + so) (len - so) else ([], s, none)
  match x with
  | some line => s.loadEnd id stUncorr line 0
  | none =>
    match s.sigFail h sig with
    | (some f, s) => s.loadFail id f
    | (none, s) => s.loadBody id a h sig strike

/-- Steps 1 and 2: checks 1 to 5, which leave a weave staged before in place (R66). -/
def State.load (s : State) (id a len : Nat) (strike : Option Nat) : State :=
  if len < 256 || a % 64 ≠ 0 || !userHbm a len then s.loadEnd id stWeaveHdr 0 0
  else if s.hbmAsleep a len then s.noteAsleep.loadEnd id stHalfAsleep 0 0
  else
    let (h, s, x) := s.hbmRead a 256
    match x with
    | some line => s.loadEnd id stUncorr line 0
    | none =>
      match s.hdrFail len h with
      | some o => s.loadEnd id stWeaveHdr 0 o
      | none => s.loadAccepted id a len h strike

/-- LOAD_WEAVE (R65-R67, R69, R479, R593). -/
def execLoadWeave (id : Nat) (strike : Option Nat) (s : State) : Host.Outcome State Fault Refusal :=
  .next (s.withCmd id 0x01 fun d =>
    if s.alarmed then s.loadEnd id stAlarmed 0 0
    else if s.serialTurn id then (s.load id (d.le 8 8) (d.le 0x10 8) strike).authDue
    else s)

/-! ## APPLY_WEAVE -/

/-- APPLY_WEAVE finished: apply_status holds its status. -/
def State.applyEnd (s : State) (id status d0 d1 : Nat) : State :=
  { s with weave := { s.weave with applyStatus := status } }.finish id status d0 d1 0

/-- Step 1: base_digest of a partial weave, and placement again. -/
def State.applyCheck (s : State) (w : Weave) : Option WFail :=
  if w.isPartial && !(s.weave.installed.isSome && w.baseDigest == s.weave.digest.take 32) then some (stWeaveHdr, 0, 0xA0)
  else
    match weaveSecs w.raw with
    | .ok l => (s.weaveCtx l w).check16 (s.halfClosed true)
    | .error f => some f

/-- Steps 3 to 6. -/
def State.applyNow (s : State) (id : Nat) (w : Weave) (strike : Option Nat) : State :=
  let ends := s.applyEnds w
  let old := fun (t : Nat) => (s.tile t).os.st
  let s := ends.foldl (fun s c => if ((s.clauseSt c).bind (·.run)).isSome then s.completeRun c else s) s
  let s := s.applyClear w.isPartial ends
  let kept := if w.isPartial then s.weave.installed.map fun o => o.drop fun c => ends.contains c else none
  match s.stagingStruck strike with
  | some line => ((s.noteStaging line).applyStruck kept).applyEnd id stUncorr line 0
  | none =>
    match kept with
    | some k => (s.installPartial w k old).applyEnd id stOK 0 0
    | none => (s.installFull w old).applyEnd id stOK 0 0

/-- APPLY_WEAVE, in its turn. -/
def State.apply (s : State) (id : Nat) (strike : Option Nat) : State :=
  match s.weave.staged with
  | none => s.applyEnd id stWeaveNone 0 0
  | some w =>
    match s.applyCheck w with
    | some f => s.applyEnd id f.1 f.2.1 f.2.2
    | none => if (s.applyEnds w).all s.quiescent then s.applyNow id w strike else s.applyEnd id stWeaveBusy 0 0

/-- APPLY_WEAVE (R69-R77, R479). -/
def execApplyWeave (id : Nat) (strike : Option Nat) (s : State) : Host.Outcome State Fault Refusal :=
  .next (s.withCmd id 0x02 fun _ =>
    if s.alarmed then s.applyEnd id stAlarmed 0 0 else if s.serialTurn id then s.apply id strike else s)

/-! ## Readback -/

/-- Whether an APPLY_WEAVE is under way: it has started and its turn has come. -/
def State.applying (s : State) : Bool :=
  s.started.any fun c => c.opcode == 0x02 && c.fin.isNone && s.serialTurn c.id

/-- WEAVE_READBACK: a readback that was started (R78-R82). -/
def execWeaveReadback (s : State) : Host.Outcome State Fault Refusal :=
  .next (if s.chiefRuns && s.weave.rbBusy && !s.applying then s.doReadback else s)

end Sys2Proof.Machine
end

