-- ==== Sys2Proof/Machine/Queues.lean ====
section
/-! DEFINITION. The host queues: enabling, doorbells, descriptor fetch and its checks, completion records (R404-R409,
R413). -/
namespace Sys2Proof.Machine

/-- A host queue. -/
def State.queue (s : State) (q : Nat) : Queue := s.queues.getD q Queue.reset

/-- A host queue changed. -/
def State.modQueue (s : State) (q : Nat) (f : Queue → Queue) : State := { s with queues := s.queues.modify q f }

/-- Whether started commands of a queue are still completing. -/
def State.completing (s : State) (q : Nat) : Bool := s.started.any fun c => c.queue == q

/-- PCI_QCFG.active (R408); a descriptor that has been fetched and waits to start counts too (log entry 101, DEDUCED). -/
def State.qActive (s : State) (q : Nat) : Bool := (s.queue q).enable || s.completing q || (s.queue q).held.isSome

/-- PCI_QCFG.err set, and its interrupt. -/
def State.queueErr (s : State) (q : Nat) : State := (s.modQueue q fun k => { k with err := true }).raise irqQueueErr

/-- Whether a ring's size is one the manual gives. -/
def ringOk (log2 : Nat) : Bool := decide (4 ≤ log2) && decide (log2 ≤ 12)

/-- A queue as an enable leaves it (R405). -/
def Queue.start (k : Queue) : Queue :=
  { k with enable := true, sqHead := 0, sqTail := 0, cqTail := 0, cqDoor := 0, phase := true }

/-- PCI_QCFG written (R405, R408): err cleared by a 1, the sizes set, the queue enabled or disabled. -/
def State.writeQcfg (s : State) (q : Nat) (v : Nat) : State :=
  let was := (s.queue q).enable
  let s := s.modQueue q fun k =>
    { k with err := k.err && !bitAt v 0, sqLog2 := bitsAt v 23 20, cqLog2 := bitsAt v 19 16, enable := was && bitAt v 31 }
  let k := s.queue q
  if bitAt v 31 && !was then
    if ringOk k.sqLog2 && ringOk k.cqLog2 && k.sq.toNat % 4096 == 0 && k.cq.toNat % 4096 == 0 && !s.completing q && k.held.isNone then
      s.modQueue q Queue.start
    else s.queueErr q
  else s

/-- QUEUE_ENABLE: the host writes enable from 0 to 1 (R405). -/
def execQueueEnable (q : Nat) (val : BitVec 32) (s : State) : Host.Outcome State Fault Refusal :=
  .next (if s.hostUp && val.getLsbD 31 && !(s.queue q).enable then s.writeQcfg q val.toNat else s)

/-- QUEUE_DISABLE: the host writes enable from 1 to 0 (R408). -/
def execQueueDisable (q : Nat) (val : BitVec 32) (s : State) : Host.Outcome State Fault Refusal :=
  .next (if s.hostUp && !val.getLsbD 31 && (s.queue q).enable then s.writeQcfg q val.toNat else s)

/-- The queue whose submission doorbell lies at an offset of BAR4 (R404). -/
def sqDoorbell (off : Nat) : Option Nat := if off % 8 = 0 && decide (off < 0x80) then some (off / 8) else none

/-- The queue whose completion doorbell lies at an offset of BAR4 (R404). -/
def cqDoorbell (off : Nat) : Option Nat :=
  if off % 8 = 0 && decide (0x100 ≤ off) && decide (off < 0x180) then some ((off - 0x100) / 8) else none

/-- What a read of BAR4 returns (R404). -/
def bar4Read (_off : Nat) : Nat := 0

/-- A queue's submission tail written (R405). -/
def State.writeSqTail (s : State) (q v : Nat) : State :=
  if !s.hostUp || !(s.queue q).enable then s
  else if 2 ^ (s.queue q).sqLog2 ≤ v then s.queueErr q
  else s.modQueue q fun k => { k with sqTail := v }

/-- A queue's completion head written (R405, R408). -/
def State.writeCqHead (s : State) (q v : Nat) : State :=
  if !s.hostUp || !s.qActive q then s
  else if 2 ^ (s.queue q).cqLog2 ≤ v then s.queueErr q
  else s.modQueue q fun k => { k with cqDoor := v }

/-- SUBMISSION_DOORBELL: a write at an offset of BAR4 (R404, R405). -/
def execSubmissionDoorbell (off : Nat) (val : BitVec 32) (s : State) : Host.Outcome State Fault Refusal :=
  .next (((sqDoorbell off).map fun q => s.writeSqTail q val.toNat).getD s)

/-- COMPLETION_DOORBELL: a write at an offset of BAR4 (R404, R405, R408). -/
def execCompletionDoorbell (off : Nat) (val : BitVec 32) (s : State) : Host.Outcome State Fault Refusal :=
  .next (((cqDoorbell off).map fun q => s.writeCqHead q val.toNat).getD s)

/-! ## Descriptors (R409) -/

/-- What a descriptor of an opcode may hold: the bits of param0, and the parameters by offset and length. -/
structure DescForm where
  op : Nat
  bits : Nat
  params : List (Nat × Nat)
  deriving DecidableEq, Repr

/-- The opcodes and their fields. -/
def descForms : List DescForm :=
  [⟨0x01, 0, [(8, 8), (0x10, 8)]⟩, ⟨0x02, 0, []⟩, ⟨0x03, 0x3F, [(8, 8)]⟩, ⟨0x04, 0xF, [(8, 8), (0x10, 8), (0x18, 8)]⟩,
   ⟨0x05, 0x13F, [(8, 8), (0x10, 8), (0x18, 4)]⟩, ⟨0x06, 0x3F, [(8, 8), (0x10, 8)]⟩, ⟨0x07, 0, [(8, 8)]⟩,
   ⟨0x10, 0, [(8, 8), (0x10, 4), (0x18, 32)]⟩, ⟨0x11, 0, [(8, 8), (0x10, 4), (0x18, 8), (0x20, 4)]⟩, ⟨0x12, 0, []⟩,
   ⟨0x20, 0, [(8, 8), (0x10, 8)]⟩, ⟨0x21, 1, []⟩, ⟨0x22, 0, []⟩, ⟨0x30, 3, []⟩, ⟨0x31, 0x3F, [(8, 8), (0x10, 8)]⟩,
   ⟨0x40, 3, []⟩, ⟨0x41, 0x101, []⟩, ⟨0x50, 0, [(8, 8)]⟩, ⟨0x60, 0x1FFFF, [(8, 8)]⟩]

/-- Whether byte i of a descriptor belongs to a parameter. -/
def DescForm.uses (f : DescForm) (i : Nat) : Bool := f.params.any fun p => decide (p.1 ≤ i) && decide (i < p.1 + p.2)

/-- The offset of the first reserved byte of the parameters that is not 0. -/
def DescForm.stray (f : DescForm) (d : List Byte) : Option Nat :=
  ((List.range 56).map (8 + ·)).find? fun i => byteAt d i != 0 && !f.uses i

/-- Whether param0 holds a value its table allows: COPY's spaces are HBM or host, not both host (R412). -/
def param0Ok (f : DescForm) (p : Nat) : Bool :=
  p &&& f.bits == p && (f.op != 0x04 || p == 0 || p == 1 || p == 4)

/-- The first offending address of a COPY, or none (R412). -/
def copyBad (d : List Byte) : Option Nat :=
  let n := leAt d 0x18 8
  let hs := leAt d 4 4 % 4 == 0
  let hd := leAt d 4 4 / 4 % 4 == 0
  let src := leAt d 8 8
  let dst := leAt d 0x10 8
  if hs && !userHbm src n then some 8
  else if hd && !userHbm dst n then some 0x10
  else if hs && hd && decide (src < dst + n) && decide (dst < src + n) then some 8
  else none

/-- The first address that its command would refuse with CMD_ARG, by its value alone. -/
def paramBad (op : Nat) (d : List Byte) : Option Nat :=
  let a := leAt d 8 8
  let n := leAt d 0x10 8
  match op with
  | 0x03 => if a != 0 && (a % 8 != 0 || !userHbm a 128) then some 8 else none
  | 0x04 => if 2 ^ 40 < leAt d 0x18 8 then none else copyBad d
  | 0x05 => if a % 64 != 0 then some 8 else if leAt d 0x18 4 % 64 != 0 then some 0x18 else none
  | 0x06 => if !userHbm a n then some 8 else none
  | 0x07 => if a % 64 != 0 || !userHbm a 1472 then some 8 else none
  | 0x10 => if a % 64 != 0 || !userHbm a 8032 then some 8 else none
  | 0x11 =>
    if !userHbm a (leAt d 0x10 4) then some 8
    else if !userHbm (leAt d 0x18 8) 2960 then some 0x18 else none
  | 0x31 => if a % 32 != 0 || !userHbm a n then some 8 else none
  | 0x50 => if !userHbm a 32 then some 8 else none
  | 0x60 => if !bitAt (leAt d 4 4) 16 && !userHbm a (leAt d 4 2) then some 8 else none
  | _ => none

/-- The first offending field of a descriptor that offends at once: flags, param0, COPY's length or a reserved byte; a
parameter before that byte which its command would refuse is named in its place (R409, R413). -/
def DescForm.bad (f : DescForm) (d : List Byte) : Option Nat :=
  let long := if f.op = 0x04 && decide (2 ^ 40 < leAt d 0x18 8) then some 0x18 else none
  if 4 ≤ byteAt d 1 then some 1
  else if !param0Ok f (leAt d 4 4) then some 4
  else (optMin long (f.stray d)).map fun o => min o ((paramBad f.op d).getD o)

/-- How a fetched descriptor completes at once, if it does. -/
def descFail (d : List Byte) : Option Completion :=
  match descForms.find? fun f => f.op == byteAt d 0 with
  | none => some { status := stCmdOpcode, detail0 := 0, detail1 := 0, detail2 := 0 }
  | some f => (f.bad d).map fun o => { status := stCmdArg, detail0 := BitVec.ofNat 64 o, detail1 := 0, detail2 := 0 }

/-! ## Fetching (R406) -/

/-- Whether a queue's completion ring has no free slot (R407). -/
def Queue.full (k : Queue) : Bool := (k.cqTail + 1) % 2 ^ k.cqLog2 == k.cqDoor

/-- Whether a descriptor is a POWER_STATE that asks for vigil. -/
def asksVigil (d : List Byte) : Bool := byteAt d 0 == 0x40 && leAt d 4 4 % 4 == 3

/-- Whether a POWER_STATE that asks for vigil has been fetched: nothing fetched after it would be executed (R498). -/
def State.toVigil (s : State) : Bool :=
  (s.started.any fun c => c.opcode == 0x40 && c.param0 % 4 == 3 && c.fin.isNone) ||
    s.queues.any fun (k : Queue) => k.held.any fun h => asksVigil h.1 && h.2.isNone

/-- Whether a queue has a descriptor to fetch; one that waits to start is fetched already, and none passes it. -/
def State.canFetch (s : State) (q : Nat) : Bool :=
  let k := s.queue q
  s.hostUp && !s.toVigil && decide (q < 16) && k.enable && k.sqHead != k.sqTail && !k.full && k.held.isNone

/-- The queues in the order of their turns (R406). -/
def State.turns (s : State) : List Nat := (List.range 16).map fun i => (s.dev.qTurn + i) % 16

/-- Whether a queue fetches its next descriptor now: the first in turn of those that have one. -/
def State.mayFetch (s : State) (q : Nat) : Bool := s.turns.find? s.canFetch == some q

/-- Whether a fetched descriptor may start: a fenced one once every earlier command of its queue has completed, any while
fewer than 64 are started (R406). -/
def State.mayStart (s : State) (q : Nat) (d : List Byte) : Bool :=
  !(s.completing q && bitAt (byteAt d 1) 0) && decide (s.started.length < 64)

/-- A command started from its descriptor; ENTROPY_READs into host memory are counted (R469). -/
def State.startCmd (s : State) (q : Nat) (d : List Byte) (fin : Option Completion) : State :=
  let toHost := byteAt d 0 == 0x60 && bitAt (leAt d 4 4) 16
  let c : Started :=
    { id := s.nextId, queue := q, cid := leAt d 2 2, opcode := byteAt d 0, desc := d, readNo := (s.queue q).hostReads,
      session := if s.sec.session then some s.sec.sessionId else none, units := none, fin := fin }
  { s.modQueue q fun k =>
      { k with held := none, hostReads := if toHost then k.hostReads + 1 else k.hostReads } with
    started := s.started ++ [c], nextId := s.nextId + 1 }

/-- A fetched descriptor started, or kept until it may start. -/
def State.takeDesc (s : State) (q : Nat) (d : List Byte) (fin : Option Completion) : State :=
  if s.mayStart q d then s.startCmd q d fin else s.modQueue q fun k => { k with held := some (d, fin) }

/-- A queue's descriptor that waits, started where it now may. -/
def State.startHeld (s : State) (q : Nat) : State :=
  match (s.queue q).held with
  | some (d, fin) => s.takeDesc q d fin
  | none => s

/-- A descriptor taken from a queue's ring: the next one is the next queue's. -/
def State.pastDesc (s : State) (q : Nat) : State :=
  { s.modQueue q fun k => { k with sqHead := (k.sqHead + 1) % 2 ^ k.sqLog2 } with
    dev := { s.dev with qTurn := (q + 1) % 16 } }

/-- COMMAND_FETCH: the next descriptor of the queue whose turn it is, read from its submission ring (R406). A read that fails
completes with HOST_ERR, and no rule says what its record names (log entry 10, DESIGN CHOICE). -/
def execCommandFetch (q : Nat) (data : HostRead) (s : State) : Host.Outcome State Fault Refusal :=
  .next
    (if !s.mayFetch q then s
     else match data with
      | .fail a =>
        ({ s with free := s.free + 64 }.pastDesc q).takeDesc q (tab 64 fun i => Config.freeByte (s.free + i))
          (some { status := stHostErr, detail0 := BitVec.ofNat 64 a, detail1 := 0, detail2 := 0 })
      | .ok d => (s.pastDesc q).takeDesc q d (descFail d))

/-! ## Completion records (R407, R413) -/

/-- A completion record. -/
def Started.record (c : Started) (x : Completion) (phase : Bool) : List Byte :=
  leBytes 2 c.cid ++ leBytes 1 c.opcode ++ leBytes 1 x.status ++ leBytes 1 c.queue ++ leBytes 1 (b2n phase) ++ zeros 2 ++
    leBytes 8 x.detail0.toNat ++ leBytes 8 x.detail1.toNat ++ leBytes 8 x.detail2.toNat

/-- A command completed with AUTH counts as an authentication failure (R476). -/
def State.authNote (s : State) (x : Completion) : State := if x.status = stAuth then s.authFail else s

/-- COMPLETION_RECORD_WRITE: a finished command's record, where its queue has a free slot and the chief steward works, and its
MSI-X; descriptors that waited for it to complete start (R406, R407, R534). -/
def execCompletionRecordWrite (id : Nat) (s : State) : Host.Outcome State Fault Refusal :=
  match s.cmd id with
  | none => .next s
  | some c =>
    match c.fin with
    | none => .next s
    | some x =>
      let k := s.queue c.queue
      if !s.chiefRuns || k.full then .next s
      else
        let next := (k.cqTail + 1) % 2 ^ k.cqLog2
        let s := s.emit (.hostWrite (k.cq.toNat + 32 * k.cqTail) (c.record x k.phase))
        let s := if bitAt (c.le 1 1) 1 then s.emit (.msix (1 + c.queue)) else s
        let s := s.modQueue c.queue fun k => { k with cqTail := next, phase := if next = 0 then !k.phase else k.phase }
        let s := { s with started := s.started.filter fun y => y.id != id }
        .next ((s.turns.foldl State.startHeld s).authNote x)

end Sys2Proof.Machine
end

