-- ==== Sys2Proof/Machine/HostMemory.lean ====
section
/-! DEFINITION. Host traffic to memory: BAR2 writes, COPY, ENTROPY_READ (R271-R276, R346, R390, R395, R399, R412, R415,
R433, R441, R469, R473). -/
namespace Sys2Proof.Machine

/-! ## Writes of the host's data into HBM -/

/-- The consequences of a host write: kept digests go, the write is in the transcript, room returned in the ring is used
(R433, R441, R442). -/
def State.afterHostWrite (s : State) (a n : Nat) : State :=
  let s := s.dropDigests a n
  match s.ring with
  | some r => if decide (a < r.base + 0x18) && decide (r.base + 0x10 < a + n) then s.recordRoom else s
  | none => s

/-- The bytes of a BAR2 write that reach memory: those below Jaset's own part, and in a half that is awake (R390, R395). -/
def State.reaching (s : State) (a : Nat) (l : List Byte) : List Byte :=
  let l := l.take (hbmUserEnd - a)
  if s.hbmAsleep a l.length then l.take (6 * stackSize - a) else l

/-- Whether a SANITIZE has run and its completion is not yet written (R473). -/
def State.sanitizing (s : State) : Bool := s.started.any fun c => c.opcode == 0x07 && c.fin.isSome

/-- The local HBM address of BAR2's byte 0: base bits below the BAR's size are ignored. -/
def State.bar2Start (s : State) : Nat := s.dev.bar2Base.toNat * 2 ^ 30 / 2 ^ s.dev.bar2Log2 * 2 ^ s.dev.bar2Log2

/-- A BAR2 write of bytes at a local address. -/
def State.bar2Put (s : State) (a : Nat) (l : List Byte) : State :=
  let r := s.reaching a l
  let s := if r.length < (l.take (hbmUserEnd - a)).length then s.noteAsleep else s
  if r.isEmpty then s else ((s.hbmWrite a r).1.recordBar2 a r).afterHostWrite a r.length

/-- BAR2_WRITE (R399). -/
def execBar2Write (off : Nat) (data : List Byte) (s : State) : Host.Outcome State Fault Refusal :=
  .next
    (if !s.hostUp || s.sanitizing || decide (2 ^ s.dev.bar2Log2 < off + data.length) then s
     else s.bar2Put (s.bar2Start + off) data)

/-- What a BAR2 read of n bytes at a local address returns (R390, R399): 0xFF where no memory of the host's stands. -/
def State.bar2Bytes (s : State) (a n : Nat) : List Byte :=
  tab n fun i =>
    if s.sanitizing || !userHbm (a + i) 1 || s.hbmAsleep (a + i) 1 then 0xFF else (s.hbmBytes (a + i) 1).getD 0 0

/-! ## COPY (R412, R415) -/

/-- Bytes of which any may reach their place: a free bit each. -/
def State.partPut (s : State) (put : Nat → Byte → State → State) (l : List Byte) : State :=
  let base := s.free
  let s := { s with free := s.free + l.length }
  l.zipIdx.foldl (fun s b => if Config.freeBit (base + b.2) then put b.2 b.1 s else s) s

/-- One byte put to HBM by a COPY. -/
def putHbm (a i : Nat) (b : Byte) (s : State) : State := (s.hbmWrite (a + i) [b]).1

/-- One byte put to host memory by a COPY. -/
def putHost (a i : Nat) (b : Byte) (s : State) : State := s.emit (.hostWrite (a + i) [b])

/-- n free bytes. -/
def State.freeBytes (s : State) (n : Nat) : List Byte × State := (tab n fun i => Config.freeByte (s.free + i), { s with free := s.free + n })

/-- A COPY to HBM of bytes that were read, some of them perhaps from struck lines. -/
def State.copyIn (s : State) (id dst : Nat) (l : List Byte) (struck : Option Nat) : State :=
  match struck with
  | some x => (s.partPut (putHbm dst) l).finish id stUncorr x 0 0
  | none =>
    match s.hbmWrite dst l with
    | (_, some x) => (s.partPut (putHbm dst) l).finish id stUncorr x 0 0
    | (s, none) => s.finish id stOK 0 0 0

/-- A COPY out of HBM into host memory. -/
def State.copyOut (s : State) (id dst : Nat) (l : List Byte) (struck fail : Option Nat) : State :=
  match struck, fail with
  | none, none => (s.emit (.hostWrite dst l)).finish id stOK 0 0 0
  | some x, _ => (s.partPut (putHost dst) l).finish id stUncorr x 0 0
  | none, some x => (s.partPut (putHost dst) l).finish id stHostErr x 0 0

/-- A COPY whose fields are in range. -/
def State.copyNow (s : State) (id : Nat) (c : Started) (data : HostRead) : State :=
  let n := c.le 0x18 8
  let src := c.le 8 8
  let dst := c.le 0x10 8
  if c.param0 % 4 = 0 then
    let (l, s, struck) := s.hbmRead src n
    if c.param0 / 4 % 4 = 0 then (s.copyIn id dst l struck).afterHostWrite dst n
    else s.copyOut id dst l struck (match data with | .fail a => some a | .ok _ => none)
  else
    match data with
    | .ok l =>
      let l := fitTo n l
      ((s.copyIn id dst l none).recordWrite dst l).afterHostWrite dst n
    | .fail a =>
      let (l, s) := s.freeBytes n
      (((s.partPut (putHbm dst) l).recordWrite dst l).afterHostWrite dst n).finish id stHostErr a 0 0

/-- Whether an HBM range of a COPY lies in a sleeping half. -/
def State.copyAsleep (s : State) (c : Started) : Bool :=
  let n := c.le 0x18 8
  (c.param0 % 4 == 0 && s.hbmAsleep (c.le 8 8) n) || (c.param0 / 4 % 4 == 0 && s.hbmAsleep (c.le 0x10 8) n)

/-- COPY (R412, R415). -/
def execCopy (id : Nat) (data : HostRead) (s : State) : Host.Outcome State Fault Refusal :=
  .next (s.withCmd id 0x04 fun c =>
    if c.le 0x18 8 = 0 then s.finish id stOK 0 0 0
    else
      match copyBad c.desc with
      | some o => s.cmdArg id o
      | none => if s.copyAsleep c then s.noteAsleep.finish id stHalfAsleep 0 0 0 else s.copyNow id c data)

/-! ## ENTROPY_READ (R271-R276, R469) -/

/-- Whether a hopper is powered and neither ready nor failed (R273). -/
def State.filling (s : State) : Bool :=
  [false, true].any fun e => s.halfUp e && !(s.hop e).ready && !(s.hop e).entFail

/-- Whether an internal request waits, or a read that began before this one (R271). -/
def State.readAhead (s : State) (id : Nat) : Bool :=
  !s.liveDraws.isEmpty || s.started.any fun c => c.opcode == 0x60 && c.fin.isNone && decide (c.id < id)

/-- A read that waits, with what it has gathered so far (R273). -/
def State.readWaits (s : State) (id : Nat) : State := s.modCmd id fun c => { c with units := some (c.units.getD []) }

/-- The nonce of a read under a session (R469). -/
def Started.readNonce (c : Started) : List Byte := leBytes 4 c.queue ++ leBytes 8 c.readNo

/-- A gathered read into host memory. -/
def State.readToHost (s : State) (c : Started) (l : List Byte) : State :=
  let dst := c.le 8 8
  match c.session with
  | none => (s.emit (.hostWrite dst l)).finish c.id stOK l.length 0 0
  | some n =>
    let s := s.checkEntry 2
    match s.sec.session && s.sec.sessionId == n, (s.key 2).map (·.key) with
    | true, some k =>
      let (x, tag) := gcmSeal k c.readNonce (c.desc.take 16) l
      (s.emit (.hostWrite dst x)).finish c.id stOK l.length (leAt tag 0 8) (leAt tag 8 8)
    | _, _ => s.finish c.id stAuth 0 0 0

/-- A gathered read into HBM. -/
def State.readToHbm (s : State) (c : Started) (l : List Byte) : State :=
  let dst := c.le 8 8
  match s.hbmWrite dst l with
  | (_, some x) => s.finish c.id stUncorr x 0 0
  | (s, none) => ((s.recordWrite dst l).afterHostWrite dst l.length).finish c.id stOK l.length 0 0

/-- A read that has its units. -/
def State.readDone (s : State) (c : Started) (l : List Byte) (fail : Option Nat) : State :=
  if bitAt c.param0 16 then
    match fail with
    | some a => s.finish c.id stHostErr a 0 0
    | none => s.readToHost c l
  else s.readToHbm c l

/-- A read that may gather: the units it lacks, as far as they are there. -/
def State.readGather (s : State) (c : Started) (n : Nat) (fail : Option Nat) : State :=
  let have_ := c.units.getD []
  let (l, s) := State.gather ((n + 31) / 32 - have_.length) s have_
  let s := s.modCmd c.id fun x => { x with units := some l }
  if l.length = (n + 31) / 32 then s.readDone c (l.flatten.take n) fail else s

/-- ENTROPY_READ: it gathers what the hoppers have, and is done once it has its units (R272, R273). -/
def execEntropyRead (id : Nat) (fail : Option Nat) (s : State) : Host.Outcome State Fault Refusal :=
  .next (s.withCmd id 0x60 fun c =>
    let n := c.param0 % 2 ^ 16
    let here := !bitAt c.param0 16
    if n = 0 then s.finish id stOK 0 0 0
    else if here && !userHbm (c.le 8 8) n then s.cmdArg id 8
    else if here && s.hbmAsleep (c.le 8 8) n then s.noteAsleep.finish id stHalfAsleep 0 0 0
    else if !s.serves false && !s.serves true then s.finish id (if s.filling then stEmpty else stNoData) 0 0 0
    else if s.readAhead id then s.readWaits id
    else s.readGather c n fail)

end Sys2Proof.Machine
end

