-- ==== Sys2Proof/Machine/CtxImage.lean ====
section
/-! DEFINITION. The context image: its records written out and read back (R178, R218, R291, R416-R419). The payloads of tile
and osier records, which the stepping lays out, are strings of 16-byte integers (log entry 18, DESIGN CHOICE). -/
namespace Sys2Proof.Machine

/-! ## Strings of integers -/

/-- Integers of 16 bytes each. -/
def intBytes (l : List Int) : List Byte := l.flatMap fun v => leBytes 16 (unsigned 128 v)

/-- The integers of such a string. -/
def bytesInt (l : List Byte) : List Int := (chunks 16 l).map fun c => signed 128 (leNat c)

/-- What reads a value off the front of a string of integers. -/
abbrev Get (α : Type) := List Int → Option (α × List Int)

/-- One integer. -/
def getInt : Get Int
  | v :: r => some (v, r)
  | [] => none

/-- One natural number. -/
def getNat : Get Nat
  | v :: r => some (v.toNat, r)
  | [] => none

/-- One truth value. -/
def getBool : Get Bool
  | v :: r => some (v == 1, r)
  | [] => none

/-- n values. -/
def getN {α : Type} (g : Get α) : Nat → Get (List α)
  | 0, l => some ([], l)
  | n + 1, l =>
    match g l with
    | some (v, l) => (getN g n l).map fun r => (v :: r.1, r.2)
    | none => none

/-- A list after its length. -/
def getList {α : Type} (g : Get α) : Get (List α)
  | n :: r => if n.toNat ≤ r.length then getN g n.toNat r else none
  | [] => none

/-- A list with its length. -/
def putList {α : Type} (f : α → List Int) (l : List α) : List Int := (l.length : Int) :: l.flatMap f

/-- A number. -/
def putNat (n : Nat) : List Int := [(n : Int)]

/-- A truth value. -/
def putBool (b : Bool) : List Int := [(b2n b : Nat)]

/-- A value that may be absent, as a list of at most one. -/
def putOpt {α : Type} (f : α → List Int) (o : Option α) : List Int := putList f o.toList

/-- A value that may be absent. -/
def getOpt {α : Type} (g : Get α) : Get (Option α) := fun l => (getList g l).map fun r => (r.1.head?, r.2)

/-! ## Phrase records -/

/-- The payload of a phrase record, 9,216 bytes; the loop stack stands outermost entry first. -/
def phraseBytes (slot : Nat) (ph : Phrase) : List Byte :=
  leBytes 1 slot ++ leBytes 1 ph.lanes ++ leBytes 2 ph.pc ++ leBytes 4 ph.base ++
    ((fitList 32 0 ph.s).drop 1).flatMap (fun v => leBytes 8 v.toNat) ++
    ((fitList 8 0 ph.p).drop 1).flatMap (fun v => leBytes 8 v.toNat) ++ leBytes 1 ph.loops.length ++
    leBytes 1 ph.vflags.toNat ++ leBytes 1 (ph.rctx.slot.getD 0xFF) ++ leBytes 1 (b2n ph.rctx.lane) ++ zeros 4 ++
    fitTo 32 (ph.loops.reverse.flatMap fun e => leBytes 2 e.start ++ leBytes 2 e.stop ++ leBytes 4 e.remaining) ++
    leBytes 8 ph.rctx.stream.toNat ++ fitTo 16 (ph.tags.map (BitVec.ofNat 8)) ++ zeros 8 ++
    fitTo 64 (ph.arrived.flatMap fun g => leBytes 4 (g.getD 0xFFFFFFFF)) ++
    fitTo 512 (ph.rctx.pos.flatMap fun v => leBytes 8 v.toNat) ++ zeros 64 ++
    fitTo 8192 (ph.v.flatMap fun r => r.flatMap fun v => leBytes 4 v.toNat)
where
  /-- A list cut or filled to n elements. -/
  fitList {w : Nat} (n : Nat) (z : BitVec w) (l : List (BitVec w)) : List (BitVec w) :=
    l.take n ++ List.replicate (n - l.length) z

/-- The words of w bytes of a string. -/
def wordsOf (w : Nat) (l : List Byte) : List (BitVec (8 * w)) := (chunks w l).map fun c => BitVec.ofNat (8 * w) (leNat c)

/-- The slot and the phrase of a record's payload; its lane counters are in the thread record. -/
def phraseOf (b : List Byte) : Nat × Phrase :=
  (byteAt b 0,
   { pc := leAt b 2 2, lanes := byteAt b 1, base := leAt b 4 4, s := 0 :: wordsOf 8 (slice b 8 248),
     v := (chunks 256 (slice b 0x400 8192)).map (wordsOf 4), p := 0 :: wordsOf 8 (slice b 0x100 56),
     loops := ((chunks 8 (slice b 0x140 (8 * byteAt b 0x138))).map fun e =>
       ({ start := leAt e 0 2, stop := leAt e 2 2, remaining := leAt e 4 4 } : LoopEnt)).reverse,
     rctx := { slot := if byteAt b 0x13A = 0xFF then none else some (byteAt b 0x13A), lane := byteAt b 0x13B == 1,
               stream := BitVec.ofNat 64 (leAt b 0x160 8), pos := wordsOf 8 (slice b 0x1C0 512) },
     ctr := List.replicate 64 0, tags := (slice b 0x168 16).map BitVec.toNat, vflags := BitVec.ofNat 5 (byteAt b 0x139),
     arrived := (chunks 4 (slice b 0x180 64)).map fun g => if leNat g = 0xFFFFFFFF then none else some (leNat g) })

/-- Whether a phrase record's payload is one that SAVE_CTX writes. -/
def phraseOk (b : List Byte) : Bool :=
  b.length == 9216 && decide (byteAt b 0 < 64) && decide (1 ≤ byteAt b 1) && decide (byteAt b 1 ≤ 64) &&
    decide (byteAt b 0x138 ≤ 4)

/-! ## Tile records -/

/-- A queued item. -/
def putItem (i : WorkItem) : List Int :=
  [(i.base : Int), (i.lanes : Int), (i.entry : Int)] ++ putList (fun (v : BitVec 64) => putNat v.toNat) i.args ++
    putOpt (fun ph => bytesInt (phraseBytes 0 ph) ++ putList putNat ph.ctr) i.resume

/-- A phrase that waits in the queue. -/
def getPhrase : Get Phrase := fun l =>
  if l.length < 576 then none
  else (getList getNat (l.drop 576)).map fun r => ({ (phraseOf (intBytes (l.take 576))).2 with ctr := r.1 }, r.2)

/-- A queued item. -/
def getItem : Get WorkItem := fun l => do
  let (base, l) ← getNat l
  let (lanes, l) ← getNat l
  let (entry, l) ← getNat l
  let (args, l) ← getList getNat l
  let (r, l) ← getOpt getPhrase l
  pure ({ base := base, lanes := lanes, entry := entry, args := args.map (BitVec.ofNat 64), resume := r }, l)

/-- An accumulator. -/
def putAcc (a : Acc) : List Int := putList (fun v => [v]) a.stack ++ [(a.count : Int), a.acc] ++ putBool a.inv

/-- An accumulator. -/
def getAcc : Get Acc := fun l => do
  let (st, l) ← getList getInt l
  let (n, l) ← getNat l
  let (v, l) ← getInt l
  let (i, l) ← getBool l
  pure ({ stack := st, count := n, acc := v, inv := i }, l)

/-- A held buffer. -/
def putHeld (h : Held) : List Int :=
  putOpt putNat h.mode ++ putList (putList fun v => [v]) h.data ++ putList (fun v => [v]) h.exps

/-- A held buffer. -/
def getHeld : Get Held := fun l => do
  let (m, l) ← getOpt getNat l
  let (d, l) ← getList (getList getInt) l
  let (e, l) ← getList getInt l
  pure ({ mode := m, data := d, exps := e }, l)

/-- Final sums on their way within a gang. -/
def putSums (l : List (List (Int × Bool))) : List Int := putList (putList fun v => v.1 :: putBool v.2) l

/-- Final sums on their way within a gang. -/
def getSums : Get (List (List (Int × Bool))) :=
  getList (getList fun l => do
    let (v, l) ← getInt l
    let (i, l) ← getBool l
    pure ((v, i), l))

/-- A stream row that waits for its AMAC. -/
def putRow (r : StreamRow) : List Int := putList (fun v => [v]) r.elems ++ putList (fun v => [v]) r.exps

/-- A stream row that waits for its AMAC. -/
def getRow : Get StreamRow := fun l => do
  let (e, l) ← getList getInt l
  let (x, l) ← getList getInt l
  pure ({ elems := e, exps := x }, l)

/-- The saved part of an array: an open output tile and the held buffers (R178), with what the gang has sent it (R595). -/
def putArray (a : ArrayU) : List Int :=
  putBool a.isOpen ++ putBool a.sat ++ putNat a.mode ++ putNat a.faultCause ++ putNat a.owner ++ [a.eref] ++
    putList (putList putAcc) (if a.isOpen then a.acc else []) ++ putHeld a.held0 ++ putHeld a.held1 ++ putBool a.active ++
    putNat a.gen ++ putList (fun o => (o.1 : Int) :: [o.2]) a.opens ++
    putList (fun r => (r.1 : Int) :: putList putRow r.2) a.rows ++ putList putSums a.sums

/-- The saved part of an array. -/
def getArray : Get ArrayU := fun l => do
  let (o, l) ← getBool l
  let (sat, l) ← getBool l
  let (mode, l) ← getNat l
  let (fc, l) ← getNat l
  let (owner, l) ← getNat l
  let (eref, l) ← getInt l
  let (acc, l) ← getList (getList getAcc) l
  let (h0, l) ← getHeld l
  let (h1, l) ← getHeld l
  let (act, l) ← getBool l
  let (gen, l) ← getNat l
  let (opens, l) ← getList (fun l => do
    let (m, l) ← getNat l
    let (e, l) ← getInt l
    pure ((m, e), l)) l
  let (rows, l) ← getList (fun l => do
    let (q, l) ← getNat l
    let (r, l) ← getList getRow l
    pure ((q, r), l)) l
  let (sums, l) ← getList getSums l
  pure ({ ArrayU.reset with
    isOpen := o, sat := sat, mode := mode, faultCause := fc, owner := owner, eref := eref,
    acc := if o then acc else ArrayU.reset.acc, held0 := h0, held1 := h1, active := act, gen := gen,
    opens := opens, rows := rows, sums := sums }, l)

/-- What a tile record holds. -/
structure TileCtx where
  items : List WorkItem
  partc : List Nat
  arr : List (List Nat)
  au : ArrayU
  deriving DecidableEq, Repr

/-- A tile record's payload. -/
def Tile.ctxBytes (T : Tile) : List Byte :=
  intBytes (putList putItem T.wq ++ putList putNat T.partc ++ putList (putList putNat) T.arr ++ putArray T.au)

/-- A tile record. -/
def tileCtx (b : List Byte) : Option TileCtx := do
  let (i, l) ← getList getItem (bytesInt b)
  let (p, l) ← getList getNat l
  let (a, l) ← getList (getList getNat) l
  let (u, _) ← getArray l
  pure { items := i, partc := p, arr := a, au := u }

/-! ## Osier records -/

/-- The digest of a tile's fixed osier structure (R218), the tiles numbered by a map. -/
def State.osierDigest (s : State) (t : Nat) (num : Nat → Nat) : List Byte :=
  let o := (s.tile t).os
  shake256 32 (encNibbles o.strands ++ fitTo 64 (o.anchorStrands.map (BitVec.ofNat 8)) ++ leBytes 1 o.anchorCount ++
    leBytes 1 o.anchorWidth ++
    ((s.bridges.filter fun b => b.ta == t || b.tb == t).flatMap fun b =>
      leBytes 2 (num b.ta) ++ leBytes 2 (num b.tb) ++ leBytes 2 b.ua ++ leBytes 2 b.ub ++ leBytes 1 (unsigned 8 b.code) ++
        leBytes 1 b.scale ++ zeros 2))

/-- What an osier record holds beside its digest (R218). -/
structure OsierCtx where
  st : List Bool
  bias : List Int
  ext : List Int
  codes0 : List Byte
  scale0 : List Nat
  codes1 : List Byte
  scale1 : List Nat
  bank : Bool
  swapPending : Bool
  index : Nat
  inEntry : Nat
  phase : Nat
  anchorSt : List Bool
  anchorBias : List Int
  anchorCoef : List Int
  deriving DecidableEq, Repr

/-- The contents of an osier array. -/
def Osier.ctxInts (o : Osier) : List Int :=
  putList putBool o.st ++ putList (fun v => [v]) o.bias ++ putList (fun v => [v]) o.ext ++
    putList (fun (b : Byte) => putNat b.toNat) (o.bank0.codes.read 0 262144) ++ putList putNat o.bank0.scale ++
    putList (fun (b : Byte) => putNat b.toNat) (o.bank1.codes.read 0 262144) ++ putList putNat o.bank1.scale ++
    putBool o.bank ++ putBool o.swapPending ++ putNat o.index ++ putNat o.inEntry.toNat ++ putNat o.phase.toNat ++
    putList putBool o.anchorSt ++ putList (fun v => [v]) o.anchorBias ++ putList (fun v => [v]) o.anchorCoef

/-- An osier record's payload: the digest, then the contents with the writes that wait at the array in place (R197,
R218). -/
def State.osierBytes (s : State) (members : List Nat) (t : Nat) : List Byte :=
  s.osierDigest t (fun u => members.idxOf u) ++ intBytes (s.tile t).os.applyWrites.ctxInts

/-- A byte. -/
def getByte : Get Byte := fun l => (getNat l).map fun r => (BitVec.ofNat 8 r.1, r.2)

/-- An osier record's contents. -/
def osierCtx (b : List Byte) : Option OsierCtx := do
  let (st, l) ← getList getBool (bytesInt (b.drop 32))
  let (bias, l) ← getList getInt l
  let (ext, l) ← getList getInt l
  let (c0, l) ← getList getByte l
  let (s0, l) ← getList getNat l
  let (c1, l) ← getList getByte l
  let (s1, l) ← getList getNat l
  let (bank, l) ← getBool l
  let (sw, l) ← getBool l
  let (ix, l) ← getNat l
  let (ie, l) ← getNat l
  let (ph, l) ← getNat l
  let (ast, l) ← getList getBool l
  let (ab, l) ← getList getInt l
  let (ac, _) ← getList getInt l
  pure { st := st, bias := bias, ext := ext, codes0 := c0, scale0 := s0, codes1 := c1, scale1 := s1, bank := bank,
         swapPending := sw, index := ix, inEntry := ie, phase := ph, anchorSt := ast, anchorBias := ab, anchorCoef := ac }

/-- A bank from its codes and scales. -/
def bankFrom (codes : List Byte) (scale : List Nat) : Bank :=
  { codes := byteCells codes, scale := scale, qerr := qerrOf (byteCells codes) }

/-- An osier array as a restore leaves it, its sums still to be derived (R219). -/
def Osier.restore (o : Osier) (c : OsierCtx) : Osier :=
  let o := { o.stopRuns with
    st := c.st, bias := c.bias, ext := c.ext, bank0 := bankFrom c.codes0 c.scale0, bank1 := bankFrom c.codes1 c.scale1,
    bank := c.bank, swapPending := c.swapPending, index := c.index, inEntry := BitVec.ofNat 32 c.inEntry,
    phase := BitVec.ofNat 32 c.phase, anchorSt := c.anchorSt, anchorBias := c.anchorBias, anchorCoef := c.anchorCoef }
  { o with idleBad := o.couplesStrand o.idle }

/-! ## The image -/

/-- A record with its header, padded to 64 bytes (R418). -/
def ctxRec (typ idx : Nat) (b : List Byte) : List Byte :=
  leBytes 2 typ ++ leBytes 2 idx ++ zeros 4 ++ leBytes 8 b.length ++ fitTo (roundUp (16 + b.length) 64 - 16) b

/-- A record, left out where it holds nothing. -/
def ctxRecIf (typ : Nat) (b : List Byte) : List Byte := if b.isEmpty then [] else ctxRec typ 0 b

/-- The phrases of a tile with their slots. -/
def Tile.phrases (T : Tile) : List (Nat × Phrase) := (T.slots.zipIdx).filterMap fun x => x.1.map fun ph => (x.2, ph)

/-- The phrases that wait in a tile's queue (R181): their lane counters and key slots are saved as those of live ones are. -/
def Tile.waiting (T : Tile) : List Phrase := T.wq.filterMap (·.resume)

/-- The thread record's entries, by thread ID. -/
def threadEntries (l : List Phrase) : List (Nat × Nat) :=
  let all := l.flatMap fun ph => (List.range ph.lanes).filterMap fun i =>
    if ph.ctr.getD i 0 = 0 then none else some (ph.base + i, ph.ctr.getD i 0)
  all.mergeSort fun a b => a.1 ≤ b.1

/-- The members that hold an osier record, by index. -/
def State.osierMembers (s : State) (members : List Nat) : List (Nat × Nat) :=
  (members.zipIdx.filter fun t => (s.tile t.1).os.present).map fun t => (t.2, t.1)

/-- The first 32 bytes of SHAKE256 over a clause's program code. -/
def State.progDigest (s : State) (c : Nat) : List Byte :=
  shake256 32 (((s.progOf c).map fun p => p.code.flatMap fun i => leBytes 8 i.toNat).getD [])

/-- The digest recorded for a key slot. -/
def State.slotKeyDigest (s : State) (k : Nat) : List Byte := ((s.key (4 + k)).map (·.digest)).getD (zeros 16)

/-- The image of a clause with the first n bytes of its SRAM (R178, R218, R291, R418). -/
def State.ctxImage (s : State) (c n : Nat) : List Byte :=
  let m := s.members c
  let tiles := m.map s.tile
  let phr := tiles.zipIdx.flatMap fun T => T.1.phrases.map fun p => (T.2, p.1, p.2)
  let os := s.osierMembers m
  let saved := phr.map (·.2.2) ++ tiles.flatMap Tile.waiting
  let slots := ((saved.filterMap fun ph => ph.rctx.slot).eraseDups).mergeSort fun a b => a ≤ b
  let body :=
    ctxRec 1 0 ((((s.clauseSt c).map (·.gens)).getD []).flatMap (leBytes 4)) ++
      (tiles.mapIdx fun i (T : Tile) => ctxRec 2 i T.ctxBytes).flatten ++
      (phr.flatMap fun p => ctxRec 3 p.1 (phraseBytes p.2.1 p.2.2)) ++
      ctxRecIf 4 ((threadEntries saved).flatMap fun e => leBytes 4 e.1 ++ zeros 4 ++ leBytes 8 e.2) ++
      ctxRecIf 5 (s.sramRead m 0 n) ++ (os.flatMap fun x => ctxRec 6 x.1 (s.osierBytes m x.2)) ++
      ctxRecIf 7 (slots.flatMap fun k => leBytes 1 k ++ zeros 15 ++ s.slotKeyDigest k)
  [0x4E, 0x43, 0x58, 0x31, 1, 0] ++ leBytes 2 (if os.isEmpty then 0 else 1) ++ leBytes 8 (0x80 + body.length) ++
    leBytes 2 m.length ++ leBytes 2 phr.length ++ leBytes 4 (tiles.foldl (fun a T => a + T.wq.length) 0) ++ leBytes 4 n ++
    leBytes 4 os.length ++ s.progDigest c ++ shake256 32 body ++ zeros 32 ++ body

/-- A record read back: type, member index, payload. -/
structure CtxRecord where
  typ : Nat
  idx : Nat
  body : List Byte
  deriving DecidableEq, Repr

/-- The records of an image's body; none where they do not fill it in ascending order. -/
def ctxRecords (b : List Byte) : Nat → Nat → Nat × Nat → Option (List CtxRecord)
  | 0, p, _ => if p = b.length then some [] else none
  | n + 1, p, last =>
    if p = b.length then some []
    else if b.length < p + 16 then none
    else
      let len := leAt b (p + 8) 8
      let x : CtxRecord := { typ := leAt b p 2, idx := leAt b (p + 2) 2, body := slice b (p + 16) len }
      let next := p + roundUp (16 + len) 64
      if b.length < next || x.typ < last.1 || (x.typ == last.1 && decide (x.idx < last.2)) then none
      else (ctxRecords b n next (x.typ, x.idx)).map (x :: ·)

/-- An image as RESTORE_CTX reads it. -/
structure CtxImage where
  members : Nat
  sram : List Byte
  gens : List Nat
  tiles : List TileCtx
  phrases : List (Nat × Nat × Phrase)
  osier : List (Nat × List Byte × OsierCtx)
  keys : List (Nat × List Byte)
  deriving DecidableEq, Repr

/-- A phrase with its lane counters from the thread record. -/
def Phrase.withThreads (ph : Phrase) (l : List (Nat × Nat)) : Phrase :=
  { ph with ctr := tab 64 fun i =>
      if i < ph.lanes then ((l.find? fun e => e.1 == ph.base + i).map (·.2)).getD 0 else 0 }

/-- The image that records spell; none where one of them is malformed. -/
def ctxParse (n live : Nat) (l : List CtxRecord) : Option CtxImage :=
  let of := fun (t : Nat) => l.filter fun r => r.typ == t
  let threads := ((of 4).flatMap fun r => chunks 16 r.body).map fun e => (leAt e 0 4, leAt e 8 8)
  let tiles := (of 2).map fun r => tileCtx r.body
  let os := (of 6).map fun r => (r.idx, r.body.take 32, osierCtx r.body)
  if l.any (fun r => r.typ == 0 || decide (7 < r.typ)) || (of 1).length != 1 || (of 2).map (·.idx) != List.range n ||
      (of 3).length != live || !(of 3).all (fun r => phraseOk r.body && decide (r.idx < n)) || tiles.any (·.isNone) ||
      os.any fun o => o.2.2.isNone then none
  else
    some { members := n, sram := (of 5).flatMap (·.body), gens := (of 1).flatMap fun r => (chunks 4 r.body).map leNat,
           tiles := tiles.filterMap id,
           phrases := (of 3).map fun r => (r.idx, (phraseOf r.body).1, ((phraseOf r.body).2).withThreads threads),
           osier := os.filterMap fun o => o.2.2.map fun c => (o.1, o.2.1, c),
           keys := ((of 7).flatMap fun r => chunks 32 r.body).map fun e => (byteAt e 0, slice e 16 16) }

end Sys2Proof.Machine
end

