-- ==== Sys2Proof/Machine/Context.lean ====
section
/-! DEFINITION. SAVE_CTX and RESTORE_CTX (R178-R181, R218, R219, R291-R293, R410, R416-R420). -/
namespace Sys2Proof.Machine

/-! ## SAVE_CTX -/

/-- Every member tile of a clause held, or released, by SAVE_CTX (R34, R417). -/
def State.holdClause (s : State) (c : Nat) (on : Bool) : State :=
  (s.members c).foldl (fun s t => s.modTile t fun T => { T with held := on }) s

/-- Whether what a clause has issued has completed: no transfer, atomic or load, no fold group that can move, no osier run;
in a frozen clause an osier run may stand that can go no further (R34, R174, R531; log entry 28). -/
def State.settled (s : State) (c : Nat) : Bool :=
  if s.frozen c then !s.issuedMoves c
  else !s.opsOut c && !s.foldMoves c && !(s.members c).any fun t => (s.tile t).os.run.isSome

/-- Whether an image of n bytes at a lies in one context-save region of the clause (R416). -/
def State.ctxRegion (s : State) (c a n : Nat) : Bool := s.regions.any fun r => r.kind == 5 && r.grants c && r.holds a n

/-- The clause left quiescent, with no phrase or queued item; the command of its run completes with ABORTED (R417). -/
def State.stopClause (s : State) (c : Nat) : State :=
  let m := s.members c
  let mine := fun (x : FoldSt) => ((s.foldRec x.slot).map fun r => r.clause == c).getD true
  let s := s.closeRun c stAborted 0 0 0
  let s := { s with folds := s.folds.filter fun x => !mine x }
  m.foldl (fun s t => (s.discardTile t).modTile t fun T =>
    { T.emptySlots with wq := [], partc := List.replicate 16 1, arr := List.replicate 16 [], au := T.au.abandon }) s

/-- The sram_bytes of a SAVE_CTX: whole lines within the clause's address space (R416). -/
def State.sramBytesOk (s : State) (c n : Nat) : Bool := n % 64 == 0 && decide (n ≤ (s.members c).length * sramSize)

/-- A settled clause saved, and released or stopped. An image address that is misaligned, or whose 128 header bytes lie in
no context-save region, is judged before sram_bytes; the image's full length after it (R413, R416; log entry 44). -/
def State.saveNow (s : State) (id c : Nat) (d : Started) : State :=
  let a := d.le 8 8
  let n := d.le 0x18 4
  let s := s.holdClause c false
  if a % 64 ≠ 0 || !s.ctxRegion c a 0x80 then s.cmdArg id 8
  else if !s.sramBytesOk c n then s.cmdArg id 0x18
  else
    let img := s.ctxImage c n
    if !s.ctxRegion c a img.length then s.cmdArg id 8
    else if d.le 0x10 8 < img.length then s.finish id stCmdArg 0x10 img.length 0
    else if s.hbmAsleep a img.length then s.noteAsleep.finish id stHalfAsleep 0 0 0
    else
      match s.hbmWrite a img with
      | (s, some x) => s.finish id stUncorr x 0 0
      | (s, none) => (if bitAt d.param0 8 then s.stopClause c else s).finish id stOK img.length 0 0

/-- A run that a fault has frozen and that is over completes before its clause is saved (R176). -/
def State.closeFrozen (s : State) (c : Nat) : State :=
  if s.frozen c && ((s.clauseSt c).bind (·.run)).isSome && s.runOver c then s.completeRun c else s

/-- SAVE_CTX: the clause is held, and once what it has issued has completed it is saved (R178, R416, R417). -/
def execSaveCtx (id : Nat) (s : State) : Host.Outcome State Fault Refusal :=
  .next (s.withCmd id 0x05 fun d =>
    let c := d.param0 % 64
    if s.afterApply id c then s
    else if (s.clauseRec c).isNone then s.finish id stWeaveNone 0 0 0
    else if s.settled c then (s.closeFrozen c).saveNow id c d
    else s.holdClause c true)

/-! ## RESTORE_CTX -/

/-- The image read and its first checks: what it spells, or none (R420 step 1). -/
def ctxRead (b : List Byte) : Option CtxImage :=
  let total := leAt b 8 8
  if slice b 0 6 ≠ [0x4E, 0x43, 0x58, 0x31, 1, 0] || total < 128 || b.length < total ||
      shake256 32 (slice b 0x80 (total - 0x80)) ≠ slice b 0x40 32 then none
  else
    (ctxRecords (slice b 0x80 (total - 0x80)) (total / 64) 0 (0, 0)).bind fun l => ctxParse (leAt b 0x10 2) (leAt b 0x12 2) l

/-- Whether an image fits a clause: its SRAM bytes the address space, and, for another member count, the rest of R180. -/
def State.ctxFits (s : State) (c : Nat) (x : CtxImage) : Bool :=
  let m := (s.members c).length
  decide (x.sram.length ≤ m * sramSize) &&
    (x.members == m ||
      (!(x.phrases.any fun p => decide (rootIdBase ≤ p.2.2.base)) && !(x.tiles.any fun t => t.au.isOpen) &&
        !(x.tiles.any fun t => t.arr.any fun l => !l.isEmpty) &&
        decide (x.phrases.length + (x.tiles.flatMap (·.items)).length ≤ m * (64 + 1024))))

/-- The target tile of each saved osier array, by rank (R219): saved member index and target tile. -/
def State.osierMap (s : State) (c : Nat) (x : CtxImage) : List (Nat × Nat) :=
  List.zipWith (fun o t => (o.1, t.2)) x.osier (s.osierMembers (s.members c))

/-- Whether the saved osier arrays fit the target's (R219). -/
def State.osierFits (s : State) (c : Nat) (x : CtxImage) : Bool :=
  let map := s.osierMap c x
  let num := fun (t : Nat) => ((map.find? fun e => e.2 == t).map (·.1)).getD 0xFFFF
  decide (x.osier.length ≤ (s.osierMembers (s.members c)).length) &&
    (List.zipWith (fun o e => s.osierDigest e.2 num == o.2.1) x.osier map).all id

/-- Whether the key slots named by saved rounding contexts hold the keys they held (R292). -/
def State.ctxKeysOk (s : State) (c : Nat) (x : CtxImage) : Bool :=
  x.keys.all fun e => (s.grantedKey c e.1).isSome && s.slotKeyDigest e.1 == e.2

/-- A tile as a restore takes it over: no phrase, item or output tile of its own left. What TSQ_FAULT and TSQ_ARR_STAT
report stays: a LAUNCH clears the one, the next open the other (R107, R177). -/
def Tile.clearForCtx (T : Tile) : Tile :=
  { T.emptySlots with
    wq := [], partc := List.replicate 16 1, arr := List.replicate 16 [], dmas := [], au := T.au.abandon,
    os := T.os.stopRuns }

/-- A saved array taken over: its held buffers and the gang traffic that waited, and its output tile where one was open;
else TSQ_ARR_STAT goes on reporting the tile's own last one. The cause of the last array fault is no part of an image
(R107, R178, R179). -/
def ArrayU.restore (u v : ArrayU) : ArrayU :=
  let w := { u with held0 := v.held0, held1 := v.held1, active := v.active, gen := v.gen, opens := v.opens, rows := v.rows,
                    sums := v.sums }
  if v.isOpen then
    { w with isOpen := true, sat := v.sat, mode := v.mode, owner := v.owner, eref := v.eref, acc := v.acc }
  else w

/-- Each member's contents back on the member of the same index (R179). -/
def State.restoreSame (s : State) (m : List Nat) (x : CtxImage) : State :=
  let s := (m.zip x.tiles).foldl (fun s e => s.modTile e.1 fun T =>
    { T with wq := e.2.items, partc := e.2.partc, arr := e.2.arr, au := T.au.restore e.2.au }) s
  x.phrases.foldl (fun s p => s.setPhrase (m.getD p.1 0) p.2.1 (some p.2.2)) s

/-- A phrase placed on a tile: in its lowest free slot, else in its queue (R181). -/
def Tile.place (ph : Phrase) (T : Tile) : Tile :=
  match T.freeSlot with
  | some p => { T with slots := T.slots.set p (some ph) }
  | none => { T with wq := T.wq ++ [{ base := ph.base, lanes := ph.lanes, entry := ph.pc, args := [], resume := some ph }] }

/-- The saved phrases spread over the target's members by ascending base ID, then the queued items (R181). -/
def State.restoreSpread (s : State) (m : List Nat) (x : CtxImage) : State :=
  let ranked := (x.phrases.map (·.2.2)).mergeSort fun a b => a.base ≤ b.base
  let s := ranked.zipIdx.foldl (fun s p => s.modTile (m.getD (p.2 % m.length) 0) (Tile.place p.1)) s
  (x.tiles.flatMap (·.items)).zipIdx.foldl (fun s i =>
    s.modTile (m.getD (i.2 % m.length) 0) fun T => { T with wq := T.wq ++ [i.1] }) s

/-- The osier arrays restored and their sums derived (R219). -/
def State.restoreOsier (s : State) (c : Nat) (x : CtxImage) : State :=
  let map := s.osierMap c x
  let s := (List.zipWith (fun o e => (e.2, o.2.2)) x.osier map).foldl (fun s e => s.modOs e.1 fun o => o.restore e.2) s
  (s.members c).foldl (fun s t => s.modOs t fun o => ({ o with bsum := s.bridgeSums t }).sumAnchors) s

/-- A checked image installed, and its run resumed (R181, R219, R420). -/
def State.restoreNow (s : State) (id c : Nat) (x : CtxImage) : State :=
  let m := s.members c
  let s := { s with spins := s.spins.filter fun e => !(m.contains e.tile || m.contains e.target) }
  let s := m.foldl (fun s t => ((s.cutRun t).discardTile t).modTile t Tile.clearForCtx) s
  let s := if x.members = m.length then s.restoreSame m x else s.restoreSpread m x
  let s := (s.restoreOsier c x).sramWrite m 0 x.sram
  s.modClause c fun _ =>
    { ClauseSt.fresh c with gens := x.gens, run := some { cmd := id, args := [], tStart := s.timer, gloss := none } }

/-- RESTORE_CTX, once its clause is there and free: the checks of R420 in order. -/
def State.restoreCheck (s : State) (id c a n : Nat) : State :=
  if !userHbm a n then s.cmdArg id 8
  else if s.hbmAsleep a n then s.noteAsleep.finish id stHalfAsleep 0 0 0
  else
    let (b, s, struck) := s.hbmRead a n
    match struck with
    | some x => s.finish id stUncorr x 0 0
    | none =>
      match ctxRead b with
      | none => s.finish id stCtxShape 0 0 0
      | some x =>
        if slice b 0x20 32 ≠ s.progDigest c || !s.ctxFits c x || !s.osierFits c x then s.finish id stCtxShape 0 0 0
        else if !s.ctxKeysOk c x then s.finish id stCtxKey 0 0 0
        else s.restoreNow id c x

/-- RESTORE_CTX (R410, R420, R479, R533). -/
def execRestoreCtx (id : Nat) (s : State) : Host.Outcome State Fault Refusal :=
  .next (s.withCmd id 0x06 fun d =>
    let c := d.param0 % 64
    if s.alarmed then s.finish id stAlarmed 0 0 0
    else if s.afterApply id c then s
    else if (s.clauseRec c).isNone then s.finish id stWeaveNone 0 0 0
    else if s.clauseTaken c || (s.members c).any fun t => (s.tile t).dbg.held || (s.tile t).held || s.mbHeld t then
      s.finish id stWeaveBusy 0 0 0
    else s.restoreCheck id c (d.le 8 8) (d.le 0x10 8))

end Sys2Proof.Machine
end

