-- ==== Sys2Proof/Machine/Replay.lean ====
section
/-! DEFINITION. TRANSCRIPT and REPLAY (R439-R448). -/
namespace Sys2Proof.Machine

/-! ## TRANSCRIPT (R443) -/

/-- TRANSCRIPT_START. -/
def execTranscriptStart (id : Nat) (s : State) : Host.Outcome State Fault Refusal :=
  .next (s.withCmd id 0x30 fun d =>
    if !bitAt d.param0 0 then s
    else if s.trans.recording then s.finish id stOK 0 0 0
    else
      match s.ring with
      | none => s.cmdArg id 4
      | some r => (s.recordStart r (bitAt d.param0 1)).finish id stOK 0 0 0)

/-- TRANSCRIPT_STOP. -/
def execTranscriptStop (id : Nat) (s : State) : Host.Outcome State Fault Refusal :=
  .next (s.withCmd id 0x30 fun d => if bitAt d.param0 0 then s else s.recordStop.finish id stOK 0 0 0)

/-! ## The entries of a transcript (R440) -/

/-- An entry as it lies in a transcript: its offset, its header's fields, its payload. -/
structure TrEntry where
  at_ : Nat
  type : Nat
  link : Nat
  vc : Nat
  seq : Nat
  ref : Nat
  payload : List Byte
  deriving DecidableEq, Repr

/-- Whether an entry's fields are ones that Jaset writes (R440). -/
def TrEntry.ok (e : TrEntry) : Bool :=
  match e.type with
  | 0 => true
  | 1 => e.payload.length == 64
  | 2 => e.payload.isEmpty
  | 3 => userHbm e.ref e.payload.length
  | 4 => e.payload.length == 128 && decide (e.ref < 64)
  | 5 => decide (e.link < 32) && (e.vc == 0 || e.vc == 2) && (wireMsg e.payload).isSome
  | 6 => decide (e.link < 32) && (e.vc == 0 || e.vc == 2)
  | 7 => e.payload.isEmpty
  | _ => false

/-- The entry at the start of bytes that lie at an offset, with the length it takes. -/
def entryAt (o : Nat) (l : List Byte) : Option (TrEntry × Nat) :=
  let n := leAt l 4 4
  let whole := 32 + roundUp n 32
  let e : TrEntry :=
    { at_ := o, type := byteAt l 0, link := byteAt l 1, vc := byteAt l 2, seq := leAt l 8 8, ref := leAt l 0x10 8,
      payload := slice l 32 n }
  let plain := e.type = 5 || e.type = 6 || (e.link = 0xFF && e.vc = 0)
  if l.length < 32 || l.length < whole || byteAt l 3 ≠ 0 || !plain || !e.ok then none else some (e, whole)

/-- The entries of a transcript, to its stop entry or its end; none where one is malformed. -/
def trEntries : Nat → Nat → List Byte → Option (List TrEntry)
  | 0, _, _ => some []
  | f + 1, o, l =>
    if l.isEmpty then some []
    else
      (entryAt o l).bind fun x =>
        if x.1.type = 2 then some [x.1] else (trEntries f (o + x.2) (l.drop x.2)).map (x.1 :: ·)

/-- A transcript's bytes as its entries: the first is a start entry with the installed digest (R445). -/
def State.transcript (s : State) (l : List Byte) : Option (List TrEntry) :=
  (trEntries (l.length / 32 + 1) 0 l).filter fun es =>
    match es with
    | e :: r => e.type == 1 && e.payload == s.weave.digest && !r.any fun x => x.type == 1
    | [] => false

/-! ## What concerns the clause (R446, R447) -/

/-- The parts of a host entry that lie in regions the clause may access. -/
def State.hostParts (s : State) (c : Nat) (e : TrEntry) : List (Nat × List Byte) :=
  (s.regions.filter fun r => r.grants c).filterMap fun r =>
    let lo := max e.ref r.base
    let hi := min (e.ref + e.payload.length) (r.base + r.len)
    if lo < hi then some (lo, slice e.payload (lo - e.ref) (hi - lo)) else none

/-- A host write applied. -/
def State.hostPut (s : State) (p : Nat × List Byte) : State :=
  if s.hbmAsleep p.1 p.2.length then s.noteAsleep else ((s.hbmWrite p.1 p.2).1).afterHostWrite p.1 p.2.length

/-- Whether an inbound message is addressed to the clause: to a member tile, a fold slot or an accessible region. -/
def State.forClause (s : State) (c : Nat) (m : Msg) : Bool :=
  if m.resp then (s.members c).contains m.dstNode
  else s.msgClause m == some c &&
    match m.body with
    | .dmaWrite c a l _ => s.dmaRegion c a l.length true
    | .dmaRead c a n _ => s.dmaRegion c a n false
    | .atomic c a code _ => s.atomRegion c a (atomWidth code)
    | _ => true

/-- The request of the clause that an inbound response answers: the first to its source still without one. -/
def Replay.askedOf (r : Replay) (m : Msg) : Option (Nat × Nat × Nat) :=
  r.asked.find? fun a => a.2.1 == m.src && a.2.2 == m.srcNode

/-- A request served during a REPLAY: its answer is kept for the comparison. -/
def State.replayServe (s : State) (m : Msg) : State :=
  let (s, b) := s.remoteServe m.body
  let a : Msg := { id := 0, vc := 0, resp := true, dst := m.src, dstNode := m.srcNode, src := s.devId, srcNode := m.dstNode,
                   body := b, wire := [], buf := none }
  (s.sendMsg (decide (stackNode 6 ≤ m.dstNode)) true a).getD s

/-- An inbound entry delivered; none while the request it answers has not been sent. -/
def State.replayIn (s : State) (r : Replay) (n : Nat) (m : Msg) : Option State :=
  if !s.forClause r.clause m then some s
  else if m.resp then
    (r.askedOf m).map fun a =>
      { s with resps := s.resps ++ [{ m with id := a.1 }]
               replay := s.replay.map fun r => { r with asked := r.asked.erase a } }
  else if asksAccess m.body then some (s.replayServe m)
  else some (s.foldArrive n m.body)

/-! ## The comparison (R447) -/

/-- Whether a recorded outbound message is the clause's: its own request or fold group, or the answer to a request of the
transcript that it served. -/
def State.sentByClause (s : State) (c : Nat) (es : List TrEntry) (m : Msg) : Bool :=
  if m.resp then
    es.any fun e => e.type == 5 && match wireMsg e.payload with
      | some q => !q.resp && s.msgClause q == some c && q.src == m.dst && q.srcNode == m.dstNode
      | none => false
  else s.msgClause m == some c

/-- The recorded outbound entries of the clause. -/
def State.outEntries (s : State) (c : Nat) (es : List TrEntry) : List TrEntry :=
  es.filter fun e => e.type == 6 && match wireMsg e.payload with
    | some m => s.sentByClause c es m
    | none => true

/-- The first recorded outbound entry that differs from what was sent on its link in its place, or has nothing there. -/
def firstDiff (out : List TrEntry) (sent : List (Nat × List Byte)) : Option TrEntry :=
  (out.zipIdx.find? fun e =>
    let k := ((out.take e.2).filter fun x => x.link == e.1.link).length
    ((sent.filter fun x => x.1 == e.1.link)[k]?.map (·.2)) != some e.1.payload).map (·.1)

/-- REPLAY's completion after its last entry. -/
def State.replayEnd (s : State) (r : Replay) (es : List TrEntry) : State :=
  let status := if r.satSeen then stSat else stOK
  let (d0, d1) : Nat × Nat :=
    match firstDiff (s.outEntries r.clause es) r.sent with
    | some e => (e.at_, e.link + e.seq % 2 ^ 56 * 256)
    | none => (2 ^ 64 - 1, 0)
  s.replayOver.finish r.cmd status d0 d1 r.applied

/-! ## REPLAY -/

/-- A REPLAY moved past an entry. -/
def State.replayPast (s : State) (host : Bool) : State :=
  { s with replay := s.replay.map fun r => { r with pos := r.pos + 1, applied := r.applied + b2n host } }

/-- The next entry of a REPLAY applied, where it can be (R446). -/
def State.replayEntry (s : State) (r : Replay) (e : TrEntry) : State :=
  let busy := ((s.clauseSt r.clause).bind (·.run)).isSome
  match e.type with
  | 3 =>
    let ps := s.hostParts r.clause e
    (ps.foldl State.hostPut s).replayPast (!ps.isEmpty)
  | 4 =>
    if e.ref ≠ r.clause then s.replayPast false
    else if busy then s
    else (s.replayPast true).startRun r.clause r.cmd e.payload
  | 5 =>
    match wireMsg e.payload with
    | some m =>
      match s.replayIn r e.link m with
      | some s => s.replayPast false
      | none => s
    | none => s.replayPast false
  | 7 => if busy then s else s.replayOver.finish r.cmd stNoData e.at_ 0 0
  | _ => s.replayPast false

/-- A REPLAY at work carried on by one entry, or completed. -/
def State.replayStep (s : State) (r : Replay) : State :=
  match trEntries (r.len / 32 + 1) 0 (s.hbmBytes r.addr r.len) with
  | none => s.replayOver.cmdArg r.cmd 8
  | some es =>
    match es[r.pos]? with
    | some e => s.replayEntry r e
    | none => if ((s.clauseSt r.clause).bind (·.run)).isSome then s else s.replayEnd r es

/-- A REPLAY begun: its transcript read and checked (R445). -/
def State.replayStart (s : State) (id c a n : Nat) : State :=
  if a % 32 ≠ 0 || !userHbm a n then s.cmdArg id 8
  else if s.hbmAsleep a n then s.noteAsleep.finish id stHalfAsleep 0 0 0
  else
    let (l, s, struck) := s.hbmRead a n
    match struck with
    | some x => s.finish id stUncorr x 0 0
    | none =>
      match s.transcript l with
      | none => s.cmdArg id 8
      | some _ =>
        let r : Replay :=
          { cmd := id, clause := c, addr := a, len := n, pos := 0, applied := 0, sat := 0, satSeen := false, sent := [],
            asked := [] }
        { s.recordFlush with replay := some r }

/-- REPLAY: the first time its transcript is checked, then one entry is applied each time (R445-R448, R479). -/
def execReplay (id : Nat) (s : State) : Host.Outcome State Fault Refusal :=
  .next (s.withCmd id 0x31 fun d =>
    let c := d.param0 % 64
    match s.replay with
    | some r => if r.cmd = id then s.replayStep r else if s.alarmed then s.finish id stAlarmed 0 0 0 else s
    | none =>
      if s.alarmed then s.finish id stAlarmed 0 0 0
      else if s.afterApply id c then s
      else if (s.clauseRec c).isNone then s.finish id stWeaveNone 0 0 0
      else if s.clauseTaken c then s
      else s.replayStart id c (d.le 8 8) (d.le 0x10 8))

end Sys2Proof.Machine
end

