-- ==== Sys2Proof/Machine/SecReport.lean ====
section
/-! DEFINITION. The attestation report, the settings record, and the key-store entries that are set (R451-R454, R460-R462,
R480, R547). -/
namespace Sys2Proof.Machine

/-! ## The firmware in force, as others see it -/

/-- The active flash slot. -/
def State.activeSlot (s : State) : FwSlot := if s.fw.activeSlot then s.fw.slot1 else s.fw.slot0

/-- The active firmware manifest: that of the active slot, or of what the part was shipped with (log entry 9, DESIGN CHOICE). -/
def State.manifest (s : State) : List Byte :=
  let l := s.activeSlot.image
  if l.isEmpty then Config.shippedManifest else l.take 0xC00

/-- The settings format in use. -/
def State.activeFormat (s : State) : Nat := s.activeSlot.format

/-- The settings copy of the format in use rewritten with the values in force (R480, R547). -/
def State.saveSettings (s : State) : State :=
  let f := s.activeFormat
  let x : Settings :=
    { format := f, policy := s.alm.policy, tLow := s.alm.tLow, tHigh := s.alm.tHigh, authLimit := s.alm.authLimit,
      dbgLimit := s.alm.dbgLimit, acceptChain := s.fw.acceptChain, defaulted := false }
  { s with fw := { s.fw with settings := s.fw.settings.filter (fun y => y.format != f) ++ [x] } }

/-! ## The report (R461, R462) -/

/-- The report's bytes 0x000 to 0x17F. -/
def State.reportBody (s : State) (nonce : List Byte) (length : Nat) : List Byte :=
  let signed := s.hasKey 0
  let flags := b2n signed + 2 * b2n s.sec.idErased + 4 * b2n (!signed && !s.sec.idErased)
  [0x4E, 0x41, 0x54, 0x31, 1, 0] ++ leBytes 2 flags ++ leBytes 4 length ++ zeros 4 ++ fitTo 32 nonce ++ s.idKeyId ++
    fitTo 16 Config.serial ++ leBytes 8 s.timer ++ leBytes 4 s.pwr.bootCount.toNat ++
    leBytes 1 (if s.dev.recovery then 3 else s.fw.state) ++ leBytes 1 s.sec.debug ++ leBytes 1 (b2n s.sec.session) ++
    zeros 1 ++ shake256 64 s.manifest ++ shake256 32 Config.bootRom ++ fitTo 64 s.weave.digest ++
    fitTo 16 s.weave.lastId ++ fitTo 32 s.sec.ownerId ++ leBytes 4 s.alm.policy.toNat ++ leBytes 2 s.alm.latched.toNat ++
    leBytes 2 s.almPresent.toNat ++ (tab 6 fun k => leBytes 2 (s.alm.counts.getD k 0)).flatten ++
    leBytes 4 s.sec.debugOpens.toNat ++ leBytes 4 s.sec.sanitizeCount.toNat ++ zeros 4 ++
    fitTo 32 s.sec.lastSanitize

/-- A report of 1,664 bytes, signed where the identity is present. -/
def State.report (s : State) (nonce : List Byte) (length : Nat) : List Byte × State :=
  let b := s.reportBody nonce length
  if s.hasKey 0 then
    let (sig, s) := s.sign b
    (b ++ sig, s)
  else (b ++ zeros 1280, s)

end Sys2Proof.Machine
end

