-- ==== Sys2Proof/Machine/Security.lean ====
section
/-! DEFINITION. ATTEST, host sessions, the alarm's registers and sources, debug unlock (R460-R470, R476-R489). -/
namespace Sys2Proof.Machine

/-! ## ATTEST (R460-R463) -/

/-- Bytes written by a command at a user address, or how it completes without them. -/
def State.putOut (s : State) (id a : Nat) (l : List Byte) (done : State → State) : State :=
  if s.hbmAsleep a l.length then s.noteAsleep.finish id stHalfAsleep 0 0 0
  else
    match s.hbmWrite a l with
    | (s, some x) => s.finish id stUncorr x 0 0
    | (s, none) => done s

/-- ATTEST in its turn; an identity whose entry fails its tag is absent (R456). -/
def State.attest (s : State) (id : Nat) (d : Started) : State :=
  let a := d.le 8 8
  if a % 64 ≠ 0 || !userHbm a 8032 then s.cmdArg id 8
  else if d.le 0x10 4 < 8032 then s.finish id stCmdArg 0x10 8032 0
  else
    let nonce := slice d.desc 0x18 32
    let s := s.checkEntry 0
    if s.hasKey 0 then
      let (r, s') := s.report nonce 8032
      s'.putOut id a (r ++ s.deviceCert ++ caCert) fun s => s.finish id stOK 0 0 0
    else
      let (r, s') := s.report nonce 1664
      s'.putOut id a r fun s => s.finish id (if s.sec.idErased then stAlarmed else stAuth) 0 0 0

/-- ATTEST. -/
def execAttest (id : Nat) (s : State) : Host.Outcome State Fault Refusal :=
  .next (s.withCmd id 0x10 fun d => if s.serialTurn id then (s.attest id d).authDue else s)

/-! ## Host sessions (R464-R470) -/

/-- The input offset of the first failing field (R464, R466). -/
def sessionBad (l : List Byte) : Option Nat :=
  if slice l 0 4 ≠ [0x4E, 0x53, 0x4F, 0x31] then some 0
  else if leAt l 4 2 ≠ 1 then some 4
  else if leAt l 6 2 ≠ (if l.length = 3401 then 1 else 0) then some 6
  else if !Config.mlkemCheck (slice l 0x28 1568) then some 0x28
  else none

/-- A session opened with its drawn bytes: the output and the keys (R465-R467). -/
def State.sessionKeys (s : State) (id out : Nat) (l rnd : List Byte) : State :=
  let ek := slice l 0x28 1568
  let owner := if l.length = 3401 then some (slice l 0x648 1793) else none
  let ownerId := (owner.map keyId).getD []
  let devNonce := rnd.take 32
  let r := rnd.drop 32
  let n := s.sec.sessionId + 1
  let head := [0x4E, 0x53, 0x52, 0x31, 1, 0, 0, 0] ++ leBytes 8 n.toNat ++ devNonce ++ s.idKeyId ++ fitTo 32 ownerId ++
    fitTo 1568 (Config.mlkemCipher ek r)
  let t := shake256 64 (l ++ head)
  let (sig, s) := s.sign t
  let k := shake256 64 ([0x4E, 0x53, 0x4B, 0x31] ++ Config.mlkemSecret ek r ++ t)
  s.putOut id out (head ++ sig) fun s =>
    let s := if s.sec.session then s.endSession else s
    let s := (s.setKey 1 (k.take 32) (keyDigest (k.take 32))).setKey 2 (k.drop 32) (keyDigest (k.drop 32))
    let s := match owner with
      | some p => s.setKey 3 p (ownerId.take 16)
      | none => s
    { s with sec := { s.sec with session := true, sessionId := n, ownerId := ownerId }
             queues := s.queues.map fun (q : Queue) => { q with hostReads := 0 } }.finish id stOK 0 0 0

/-- A session opened with its drawn bytes, where the identity's entry still passes (R456, R466). -/
def State.sessionStart (s : State) (id out : Nat) (l rnd : List Byte) : State :=
  let s := s.checkEntry 0
  if s.hasKey 0 then s.sessionKeys id out l rnd else s.finish id (if s.sec.idErased then stAlarmed else stAuth) 0 0 0

/-- SESSION_OPEN in its turn, its input read. -/
def State.sessionInput (s : State) (id : Nat) (d : Started) (l : List Byte) : State :=
  match sessionBad l with
  | some o => s.cmdArg id o
  | none =>
    if !userHbm (d.le 0x18 8) 2960 then s.cmdArg id 0x18
    else if d.le 0x20 4 < 2960 then s.finish id stCmdArg 0x20 2960 0
    else
      match s.ask (.session id l) with
      | .noData => s.finish id stNoData 0 0 0
      | .wait => s.await (.session id l)
      | .ok rnd s => s.sessionStart id (d.le 0x18 8) l rnd

/-- SESSION_OPEN in its turn (R466). -/
def State.sessionOpen (s : State) (id : Nat) (d : Started) : State :=
  let a := d.le 8 8
  let n := d.le 0x10 4
  if s.alarmed || s.sec.idErased then s.finish id stAlarmed 0 0 0
  else if !(s.checkEntry 0).hasKey 0 then (s.checkEntry 0).finish id stAuth 0 0 0
  else if !userHbm a n then s.cmdArg id 8
  else if n ≠ 1608 && n ≠ 3401 then s.cmdArg id 0x10
  else if s.hbmAsleep a n then s.noteAsleep.finish id stHalfAsleep 0 0 0
  else
    match s.hbmRead a n with
    | (_, s, some x) => s.finish id stUncorr x 0 0
    | (l, s, none) => s.sessionInput id d l

/-- Whether a SESSION_OPEN waits for units. -/
def State.sessionWaits (s : State) (id : Nat) : Bool := s.draws.any fun r => r.key == (0, id)

/-- SESSION_OPEN; one that waits for units goes on when they come. -/
def execSessionOpen (id : Nat) (s : State) : Host.Outcome State Fault Refusal :=
  .next (s.withCmd id 0x11 fun d =>
    if s.alarmed then s.finish id stAlarmed 0 0 0
    else if s.serialTurn id && !s.sessionWaits id then (s.sessionOpen id d).authDue
    else s)

/-- SESSION_CLOSE (R470). -/
def execSessionClose (id : Nat) (s : State) : Host.Outcome State Fault Refusal :=
  .next (s.withCmd id 0x12 fun _ =>
    if s.serialTurn id then (if s.sec.session then s.endSession else s).finish id stOK 0 0 0 else s)

/-! ## The alarm's registers (R480) -/

/-- ALM_POLICY written: each field takes effect where it rises, or at full debug. -/
def State.writePolicy (s : State) (v : Nat) : State :=
  let new := ofBits 12 fun i =>
    let k := i / 2
    bitAt (if s.alm.action k < v / 4 ^ k % 4 || s.sec.debug = 2 then v else s.alm.policy.toNat) i
  { s with alm := { s.alm with policy := BitVec.ofNat 12 new } }.saveSettings

/-- A limit of ALM_CFG: 0 acts as 1. -/
def almLimit (v : BitVec 8) : Nat := max 1 v.toNat

/-- A limit narrowed: the register holds the limit in force (R11, R480). -/
def narrower (old new : BitVec 8) : BitVec 8 := if almLimit new < almLimit old then BitVec.ofNat 8 (almLimit new) else old

/-- ALM_CFG written: each field takes effect where it narrows. -/
def State.writeAlmCfg (s : State) (v : Nat) : State :=
  let f := fun (lo : Nat) => BitVec.ofNat 8 (bitsAt v (lo + 7) lo)
  { s with alm := { s.alm with
      tLow := if s.alm.tLow.toInt < (f 24).toInt then f 24 else s.alm.tLow
      tHigh := if f 16 < s.alm.tHigh then f 16 else s.alm.tHigh
      authLimit := narrower s.alm.authLimit (f 8)
      dbgLimit := narrower s.alm.dbgLimit (f 0) } }.saveSettings

/-- ALM_POLICY_WRITE. -/
def execAlmPolicyWrite (val : BitVec 32) (s : State) : Host.Outcome State Fault Refusal :=
  if s.hostUp then .next (s.writePolicy val.toNat) else .next s

/-- ALM_CFG_WRITE. -/
def execAlmCfgWrite (val : BitVec 32) (s : State) : Host.Outcome State Fault Refusal :=
  if s.hostUp then .next (s.writeAlmCfg val.toNat) else .next s

/-! ## The physical sources (R476, R499) -/

/-- Whether the sources are sensed continuously: the core is powered. -/
def State.senses (s : State) : Bool := s.pwr.core != .off && !s.pwr.stbyReset

/-- MESH_BREACH. -/
def execMeshBreach (present : Bool) (s : State) : Host.Outcome State Fault Refusal :=
  if s.senses then .next (s.sourcePresent 0 present) else .next s

/-- Whether a temperature sensor is read while the core is powered: a tile's with its half (R476). -/
def State.sensorOn (s : State) (x : Sensor) : Bool :=
  match x with
  | .tile t => decide (t < s.nTiles) && s.tileUp t
  | .vigil => true

/-- TEMPERATURE_OUT_OF_RANGE: a sensor's reading, compared with the range. -/
def execTemperatureOutOfRange (x : SensorTemp) (s : State) : Host.Outcome State Fault Refusal :=
  if s.senses && s.sensorOn x.sensor then .next (s.senseTemp x.sensor (4 * x.temp)) else .next s

/-- BACKSIDE_LIGHT: what the light sensors show, and the checks that an injection upsets (R476, R484). -/
def execBacksideLight (x : LightSense) (s : State) : Host.Outcome State Fault Refusal :=
  if s.senses then .next ({ s with sec := { s.sec with upset := s.sec.upset ++ x.upset } }.sourcePresent 2 x.present)
  else .next s

/-- VIGIL_WAKE: in vigil the mesh and the vigil temperature sensor are sampled (R499). -/
def execVigilWake (mesh : Bool) (x : VigilSense) (s : State) : Host.Outcome State Fault Refusal :=
  if s.pwr.vigil && s.pwr.core == .off && !s.pwr.stbyReset then
    .next (((s.tear x.torn).sourcePresent 0 mesh).senseTemp .vigil (4 * x.temp))
  else .next s

/-! ## Debug unlock (R485-R489) -/

/-- A debug nonce drawn (R486). -/
def State.takeNonce (s : State) (l : List Byte) : State := { s with sec := { s.sec with nonce := l, nonceValid := true } }

/-- SEC_DBG_CTL.challenge: the nonce before it becomes invalid, a fresh one comes as soon as the hopper gives it (R271,
R486). -/
def State.challenge (s : State) : State :=
  match s.ask .challenge with
  | .ok l s => s.takeNonce l
  | .wait => s.dropNonce.await .challenge
  | .noData => s.failDraw .challenge

/-- The reserved bytes, magic, version and level of a token. -/
def tokenShape (t : List Byte) : Bool :=
  slice t 0 4 == [0x4E, 0x44, 0x54, 0x31] && leAt t 4 2 == 1 && decide (byteAt t 6 ≤ 2) && allZero (slice t 7 9)

/-- The result of checking a token: 1 accepted, else the first failure (R488). -/
def State.tokenResult (s : State) (t : List Byte) : Nat :=
  if !tokenShape t then 2
  else if slice t 0x10 16 ≠ fitTo 16 Config.serial then 3
  else if !s.sec.nonceValid || slice t 0x20 32 ≠ s.sec.nonce then 4
  else
    match Config.debugKeys.find? fun k => keyId k == slice t 0x40 32 with
    | none => 5
    | some k => if Config.falconVerify k (t.take 0x60) (slice t 0x60 1280) && s.agrees .token then 1 else 6

/-- The debug level set by an accepted token (R485, R488). -/
def State.setDebug (s : State) (level : Nat) : State :=
  if level = 0 then s.lockDebug
  else
    let s := if level = 2 then s.eraseSession else s
    { s with sec := { s.sec with
        debug := level
        debugOpens := s.sec.debugOpens + 1 } }

/-- SEC_DBG_CTL.submit (R488). -/
def State.submit (s : State) : State :=
  let t := s.sec.token.read 0 1376
  let r := s.tokenResult t
  let s := { (if r = 6 then s.disagree .token else s).dropNonce with sec.lastResult := r }
  if r = 1 then
    { s with sec := { s.sec with dbgFails := 0 }, alm := { s.alm with dbgRun := 0 } }.setDebug (byteAt t 6)
  else s.authDue.debugFail

/-- SEC_DBG_CTL written: its bits act in ascending order. -/
def State.writeDbgCtl (s : State) (v : Nat) : State :=
  let s := if bitAt v 0 then s.challenge else s
  let s := if bitAt v 1 then s.submit else s
  if bitAt v 2 then s.lockDebug else s

/-- DBG_CHALLENGE. -/
def execDbgChallenge (s : State) : Host.Outcome State Fault Refusal := if s.hostUp then .next s.challenge else .next s

/-- DBG_SUBMIT. -/
def execDbgSubmit (s : State) : Host.Outcome State Fault Refusal := if s.hostUp then .next s.submit else .next s

/-- DBG_LOCK. -/
def execDbgLock (s : State) : Host.Outcome State Fault Refusal := if s.hostUp then .next s.lockDebug else .next s

/-- DBG_NONCE_EXPIRE (R486). -/
def execDbgNonceExpire (s : State) : Host.Outcome State Fault Refusal :=
  .next s.dropNonce

end Sys2Proof.Machine
end

