-- ==== Sys2Proof/Machine/Resets.lean ====
section
/-! DEFINITION. The resets (R504-R511, R544, R561-R564): what each keeps, the boot of the firmware, the power-up. -/
namespace Sys2Proof.Machine

/-! ## What a reset of the core leaves (R508) -/

/-- The security block as a reset of the core leaves it: no session, no key but the identity, no debug, no nonce. -/
def Sec.reboot (x : Sec) : Sec :=
  { Sec.reset with
    store := x.store.filter fun e => e.k == 0
    sessionId := x.sessionId, idErased := x.idErased, upset := x.upset, dbgFails := x.dbgFails,
    debugOpens := x.debugOpens, sanitizeCount := x.sanitizeCount,
    lastSanitize := x.lastSanitize }

/-- Every part of the core at its reset value; the VSTBY domain, the flash and the fuses as they are. -/
def State.defaults (s : State) : State :=
  { State.reset with
    fuse := s.fuse, pwr := s.pwr, tiles := List.replicate s.nTiles Tile.reset, sec := s.sec.reboot, alm := s.alm,
    glkWake := s.glkWake, plait := s.plait, fw := s.fw.reboot, timer := s.timer, out := s.out, free := s.free,
    nextId := s.nextId, nextReq := s.nextReq, pending := s.pending }

/-- A stack that goes on serving, with its error registers cleared. -/
def Stack.clearErr (k : Stack) : Stack := { k with uncorr := 0, parity := 0, corr := 0, uaValid := false, uaAddr := 0 }

/-- A hopper whose power has come, with the cutoffs in force (R260, R278). -/
def Hopper.fresh (apt rct : Nat) : Hopper :=
  { Hopper.reset with
    aptCutoff := apt, rctCutoff := rct, cells := List.replicate 16 { NoiseCell.reset with apt := apt, rct := rct } }

/-- A hopper that keeps its units and cells, its registers at their reset values; a capture ends in a retest. -/
def Hopper.keep (h : Hopper) : Hopper :=
  { Hopper.reset with
    ready := h.ready, entFail := h.entFail, alarmed := h.alarmed, units := h.units, aptCutoff := h.aptCutoff,
    rctCutoff := h.rctCutoff,
    cells := h.cells.map fun (k : NoiseCell) => if k.st = .capture then { k with st := .retest } else k }

/-- A link that keeps its PHY training and nothing else: it opens anew and sets up keys afresh (R458, R508). -/
def Link.keepTraining (k : Link) : Link :=
  { Link.reset with
    state := if k.trained then .opened else if k.state = .off then .off else .training
    trained := k.trained, credits := if k.trained then fullCredit else [],
    owed := if k.trained then List.replicate 9 0 else [] }

/-- The hello that link n sends (step 5 of link bring-up; R370). -/
def State.helloOf (s : State) (n : Nat) : Hello :=
  { devId := BitVec.ofNat 16 s.devId, role := BitVec.ofNat 8 (s.roleOf n), protect := (s.link n).protectNow,
    keyId := s.idKeyId }

/-- Hellos sent on the links that have just opened. -/
def State.sendHellos (s : State) : State :=
  (List.range 32).foldl (fun s n =>
    if (s.link n).state = .opened && !(s.link n).met then s.emit (.linkHello n (s.helloOf n)) else s) s

/-- The power block with PWR_VSET and PWR_THROT at their reset values. -/
def Pwr.defaultSet (p : Pwr) : Pwr :=
  { p with vsetW := 750, vsetE := 750, tOn := 95, tOff := 90, step := 10, period := 1 }

/-- A rail's register at its reset value, but for the setpoint in force (R512). -/
def Rail.fresh (now : Nat) (r : Rail) : Rail := { vout := 0, vcmd := r.vcmd, lastOk := now, uvSeen := false, noresp := false }

/-- The power block's other registers at their reset values (R507, R512). -/
def Pwr.coreReset (now : Nat) (p : Pwr) : Pwr :=
  { p with railW := p.railW.fresh now, railE := p.railE.fresh now, vana := 0, wakeSrc := 0, tripped := false }

/-- A calibrator with CAL_CFG at its reset value; its trims and their state stay (R233, R508). -/
def Calib.cfgReset (k : Calib) : Calib := { k with dt := 20, dv := 20, spotPeriod := 100, spotIdle := 50 }

/-- The regulators brought to PWR_VSET where they stand elsewhere. -/
def State.settle (s : State) : State :=
  [false, true].foldl (fun s e => if s.halfUp e && (s.rail e).vcmd != s.vset e then s.setpoint e (s.vset e) else s) s

/-- The scope of a host warm reset (R507, R508), of a kind; started commands write no record. -/
def State.warmReset (s : State) (kind : Nat) : State :=
  let d := s.defaults
  ({ d with
    pwr := { (s.pwr.defaultSet.coreReset s.timer) with cause := kind }
    dev := { Dev.reset with ready := s.dev.ready, recovery := s.dev.recovery, pciGen := s.dev.pciGen,
                            pciWidth := s.dev.pciWidth, pciFlit := s.dev.pciFlit, eastAwake := s.dev.eastAwake,
                            closing := s.dev.closing }
    hbm := s.hbm, bad := s.bad, exact := s.exact, hbmStacks := s.hbmStacks.map Stack.clearErr,
    tiles := s.tiles.map fun (T : Tile) => { Tile.reset with cal := T.cal.cfgReset }
    hopW := s.hopW.keep, hopE := s.hopE.keep, links := s.links.map Link.keepTraining }.settle).sendHellos

/-! ## The boot (R549, R561-R565) -/

/-- The bytes of a part of an image, by its type (R549). -/
def imagePart (type : Nat) (image : List Byte) : List Byte :=
  match (List.range 7).find? fun i => leAt image (0x60 + 96 * i) 2 == type with
  | some i => slice image (leAt image (0x68 + 96 * i) 8) (leAt image (0x70 + 96 * i) 8)
  | none => []

/-- The cutoffs of the health tests under the active image: never above the defaults (R258, R260). -/
def State.loadHealth (s : State) : State :=
  let l := s.activeSlot.image
  let (a, r) := if l.isEmpty then (824, 81) else Config.healthParams (imagePart 7 l)
  let f := fun (h : Hopper) => { h with aptCutoff := min a 824, rctCutoff := min r 81 }
  { s with hopW := f s.hopW, hopE := f s.hopE }

/-- The hoppers of a power-up: every cell begins its start-up test under the cutoffs of the image booted. -/
def State.startHoppers (s : State) : State :=
  let s := s.loadHealth
  { s with hopW := Hopper.fresh s.hopW.aptCutoff s.hopW.rctCutoff, hopE := Hopper.fresh s.hopE.aptCutoff s.hopE.rctCutoff }

/-- Part i of a manifest: its type, offset, length and digest (R549). -/
def manifestPart (m : List Byte) (i : Nat) : Nat × Nat × Nat × List Byte :=
  let b := 0x60 + 96 * i
  (leAt m b 2, leAt m (b + 8) 8, leAt m (b + 0x10) 8, slice m (b + 0x18) 64)

/-- Check 7: whether every part has its digest (R551). -/
def partsVerify (image : List Byte) : Bool :=
  (List.range 7).all fun i =>
    let p := manifestPart image i
    shake256 64 (slice image p.2.1 p.2.2.1) == p.2.2.2

/-- Whether the digests of a slot's image verify as the flash gives it back; what the part was shipped with is taken to
(R563; log entry 9, DESIGN CHOICE). -/
def FwSlot.verifies (k : FwSlot) (readBack : Bool) : Bool := readBack && (k.image.isEmpty || partsVerify k.image)

/-- Whether a slot may boot (R552, R563). -/
def Fw.bootable (f : Fw) (ok : Bool × Bool) (one : Bool) : Bool :=
  let k := f.slot one
  (k.state == 2 || k.state == 3 || k.state == 5) && decide (f.floor.toNat ≤ k.rollback.toNat) &&
    k.verifies (if one then ok.2 else ok.1)

/-- The other slot put in charge, the present one left in a state; the firmware has fallen back (R561, R563). -/
def Fw.fallBack (left : Nat) (f : Fw) : Fw :=
  let a := f.activeSlot
  { (f.modSlot a fun k => { k with state := left }).modSlot (!a) fun k => { k with state := 3 } with
    activeSlot := !a, state := 2, attempts := 0 }

/-- A slot activated: active in state 1, with no attempt yet; the slot it replaces becomes valid (R557, R560). -/
def Fw.activate (one : Bool) (f : Fw) : Fw :=
  let g := if f.activeSlot = one then f else f.modSlot f.activeSlot fun k => if k.state = 3 then { k with state := 2 } else k
  { g.modSlot one fun k => { k with state := 3 } with activeSlot := one, state := 1, attempts := 0, pend := false }

/-- The records that a boot begins with: the copy it trusts, with an activation that waited for this start carried out where its
slot is still valid (R548, R560). -/
def Fw.starts (f : Fw) : Fw :=
  let f := f.trust
  if f.pend then (if (f.slot !f.activeSlot).state = 2 then f.activate !f.activeSlot else { f with pend := false }) else f

/-- A new image that has had its three attempts, marked rejected (R561). -/
def Fw.reject (f : Fw) : Fw := f.modSlot f.activeSlot fun k => { k with state := 5 }

/-- The image the ROM hands control to, its records committed; none where it enters recovery (R561, R563). An image whose
attempts are used up is tried only after the slot before it (log entry 107, DEDUCED). -/
def Fw.boot (ok : Bool × Bool) (f : Fw) : Option Fw :=
  let f := f.starts
  let a := f.activeSlot
  let g :=
    if f.state = 1 && f.attempts = 3 then
      if f.reject.bootable ok !a then some (f.fallBack 5)
      else if f.reject.bootable ok a then some { f.reject with state := 2, attempts := 0 } else none
    else if f.bootable ok a then some f
    else if f.bootable ok !a then some (f.fallBack 4) else none
  g.map fun f => (if f.state = 1 then { f with attempts := f.attempts + 1 } else f).commit

/-- The parts of an image loaded; the microcode of a half that sleeps stays (R557, R559, R496). -/
def Fw.loadParts (east : Bool) (image : List Byte) (f : Fw) : Fw :=
  let m := imagePart 2 image
  { f with parts :=
      { steward := imagePart 1 image, microW := m, microE := if east then m else f.parts.microE,
        hbmPhy := imagePart 3 image, pciePhy := imagePart 4 image, linkPhy := imagePart 5 image } }

/-- What a power-up takes from the slot it boots: its parts; the base tables serve both halves (R234, R559). -/
def Fw.boots (ok : Bool × Bool) (f : Fw) : Fw :=
  let image := (f.slot f.activeSlot).image
  let t := imagePart 6 image
  { f.loadParts true image with tableW := t, tableE := t, slotOk := ok }

/-- A settings copy taken over; FW_STAT.defaulted says whether it had to be defaulted (R480, R564). -/
def State.takeSettings (s : State) (x : Settings) : State :=
  { s with
    alm := { s.alm with policy := x.policy, tLow := x.tLow, tHigh := x.tHigh, authLimit := x.authLimit, dbgLimit := x.dbgLimit }
    fw := { s.fw with
      acceptChain := x.acceptChain, defaulted := if x.defaulted then 7 else 0
      settings := s.fw.settings.map fun (y : Settings) => if y.format = x.format then { y with defaulted := false } else y } }

/-- The settings record read for the image booted (R480, R561, R564). -/
def State.readSettings (s : State) : State :=
  match s.fw.settings.find? fun x => x.format == s.activeFormat with
  | some x => s.takeSettings x
  | none =>
    { s with alm := { s.alm with policy := 0x666, tLow := 0xE7, tHigh := 110, authLimit := 16, dbgLimit := 4 }
             fw := { s.fw with acceptChain := false, defaulted := 7 } }

/-! ## The power-up (R509) -/

/-- A stack as the power-up leaves it, trained at the highest rate it supports, up to 9.6 Gb/s per pin (R391); one that does not
train is offline. -/
def bootStack (rates : List Nat) (i : Nat) : Stack :=
  let r := rates.getD i 0
  { Stack.reset with up := r != 0, offline := r == 0, rate := min r 96 }

/-- PWR_RESET_CAUSE.kind of a cold reset. -/
def Pwr.coldKind (p : Pwr) : Nat := if p.stbyLost then 1 else if p.pendingWake = 0 then 2 else if p.retained then 7 else 6

/-- The power block as a cold reset leaves it: the halves powered at their boot voltage (R580). -/
def Pwr.cold (p : Pwr) (b : BootIn) : Pwr :=
  { p.defaultSet with
    core := .running, vigil := false, retained := false, stbyLost := false, railW := Pwr.reset.railW,
    railE := Pwr.reset.railE, vana := 0, cause := p.coldKind, wakeSrc := p.pendingWake, pendingWake := 0,
    tripped := p.tripPending, tripPending := false, recoveryN := b.recoveryN, bootPulse := false }

/-- Whether a PCIe link trained: at a generation and a width that R396 gives. -/
def pcieUp (b : BootIn) : Bool := decide (1 ≤ b.pcieGen) && decide (b.pcieGen ≤ 7) && [1, 2, 4, 8, 16].contains b.pcieWidth

/-- The device-control registers after a cold reset, with what the PCIe link trained at: in Flit mode at generations 6 and 7
(R396). -/
def bootDev (b : BootIn) : Dev :=
  if pcieUp b then
    { Dev.reset with pciGen := b.pcieGen, pciWidth := b.pcieWidth, pciFlit := b.pcieFlit || decide (6 ≤ b.pcieGen) }
  else Dev.reset

/-- The core as a cold reset leaves it, before its firmware: HBM keeps its contents only after vigil-retain. -/
def State.coldCore (s : State) (b : BootIn) : State :=
  { s.defaults with
    pwr := s.pwr.cold b
    dev := bootDev b
    hbm := if s.pwr.retained then s.hbm else []
    bad := if s.pwr.retained then s.bad else []
    timer := 0
    sec := { s.defaults.sec with dbgFails := 0 }
    alm := { s.alm with dbgRun := 0 } }

/-- The identity regenerated after a VSTBY power-up, and its public key checked against the certificate (R450). -/
def State.regenerate (s : State) (ok : Bool) : State :=
  if ok && identityMatches && !s.sec.idErased then s.setKey 0 [] ((keyId (fitTo 1793 Config.deviceKey)).take 16) else s

/-- Recovery: no stack trained, no queue served; PCIe at generations 1 to 5 (R565). -/
def State.recover (s : State) (ok : Bool × Bool) : State :=
  { s with fw := { s.fw with slotOk := ok }
           dev := { s.dev with recovery := true, pciGen := min s.dev.pciGen 5, pciFlit := false } }

/-- An alarm raised while the core was off: its reset has nothing to stop, its interrupt is raised (R483). -/
def State.lateAlarm (s : State) : State :=
  if s.alm.pendingReset then { s with alm := { s.alm with pendingReset := false } }.raise irqAlarm else s

/-- Steps 5 to 8, under an image that was found. -/
def State.bootFw (s : State) (b : BootIn) (f : Fw) (first : Bool) : State :=
  let s := ({ s with fw := f.boots b.slotOk, hbmStacks := tab 12 (bootStack b.rates) }.readSettings).lateAlarm
  let s := s.startHoppers
  let s := if first then s.regenerate b.identityOk else s
  { s with dev := { s.dev with ready := b.starts } }

/-- COLD_RESET: RESET_N rises with the rails up, and the power-up runs to READY, or into recovery. -/
def execColdReset (b : BootIn) (s : State) : Host.Outcome State Fault Refusal :=
  if s.pwr.core != .resetHeld || !s.pwr.coreEn then .next s
  else
    let t := s.coldCore b
    match if b.recoveryN then t.fw.boot b.slotOk else none with
    | some f => .next (t.bootFw b f s.pwr.stbyLost)
    | none => .next (if s.pwr.stbyLost then (t.recover b.slotOk).regenerate b.identityOk else t.recover b.slotOk)

/-! ## Pins and warm resets -/

/-- The core stopped, its commands ended without a record, its tiles' sensors no longer read. -/
def State.coreStops (s : State) (p : CorePhase) : State :=
  { s.blindSensors (· != .vigil) with pwr := { s.pwr with core := p }, dev := { s.dev with ready := false }, started := [], replay := none }

/-- RESET_N_ASSERT (R510). -/
def execResetNAssert (s : State) : Host.Outcome State Fault Refusal :=
  if s.up then .next (s.coreStops .resetHeld) else .next s

/-- FUNDAMENTAL_RESET: a pulse of PERST_N (R507). -/
def execFundamentalReset (s : State) : Host.Outcome State Fault Refusal :=
  if s.up then .next (s.warmReset 3) else .next s

/-- HOST_WARM_RESET: an FLR, or a write of DEV_RESET with its key (R397, R507). -/
def execHostWarmReset (val : BitVec 32) (flr : Bool) (s : State) : Host.Outcome State Fault Refusal :=
  if s.hostUp && (flr || (bitsAt val.toNat 31 16 == 0x4A53 && val.getLsbD 0)) then .next (s.warmReset 4) else .next s

/-- STBY_RESET_ASSERT: the VSTBY domain at its reset values, every rail off; what flash and OTP hold stays (R508, R510). -/
def execStbyResetAssert (s : State) : Host.Outcome State Fault Refusal :=
  let s := s.coreStops .off
  .next { s with
    pwr := { s.pwr with
      stbyReset := true, stbyLost := true, vigil := false, retained := false, coreEn := false, hbmEn := false,
      thermtrip := false, bootPulse := false, tripPending := false, pendingWake := 0, retain := false, wakePlait := true,
      vigilPeriod := 50 }
    glkWake := GlkWake.reset
    alm := { Alm.reset with policy := s.alm.policy, tLow := s.alm.tLow, tHigh := s.alm.tHigh,
                            authLimit := s.alm.authLimit, dbgLimit := s.alm.dbgLimit, counts := s.alm.counts }
    sec := { s.sec with store := [], session := false, sessionId := 0, ownerId := [] }
    plait := Plait.reset }

/-- STBY_RESET_RELEASE: the straps are sampled, and CORE_EN and HBM_EN driven high unless BOOT_MODE selects boot to vigil (R510,
R511, steps 2 and 3 of R574). DESIGN CHOICE: the factory test of 0b11 adds nothing here (log entry 108). -/
def execStbyResetRelease (plAddr : BitVec 3) (bootMode : BitVec 2) (s : State) : Host.Outcome State Fault Refusal :=
  if !s.pwr.stbyReset then .next s
  else
    let on := decide (bootMode ≠ 1)
    .next { s with pwr := { s.pwr with
      stbyReset := false, plAddr := plAddr, bootMode := bootMode, bootCount := s.pwr.bootCount + 1, coreEn := on, hbmEn := on,
      vigil := !on, core := if on then .resetHeld else .off } }

/-- THERMTRIP: the core and its stacks are switched off, as in vigil, until a wake once it has cooled (R583). -/
def execThermtrip (s : State) : Host.Outcome State Fault Refusal :=
  if s.pwr.stbyReset then .next s
  else
    let s := s.coreStops .off
    .next { s with pwr := { s.pwr with
      thermtrip := true, tripPending := true, coreEn := false, hbmEn := false, bootPulse := false, vigil := true,
      retained := false, pendingWake := 0 } }

/-- BOOT_READY_TIMEOUT: a state-1 image that has not set READY (R561). -/
def execBootReadyTimeout (s : State) : Host.Outcome State Fault Refusal :=
  if s.up && !s.dev.ready && !s.dev.recovery && s.fw.state == 1 then
    let s := s.coreStops .off
    .next { s with pwr := { s.pwr with coreEn := false, bootPulse := true } }
  else .next s

/-- FAILED_BOOT_RESTART: CORE_EN rises again (R561). -/
def execFailedBootRestart (s : State) : Host.Outcome State Fault Refusal :=
  if s.pwr.bootPulse && !s.pwr.stbyReset then
    .next { s with pwr := { s.pwr with coreEn := true, bootPulse := false, core := .resetHeld } }
  else .next s

/-! ## Waking (R385, R500, R583) -/

/-- A wake on a path, 1 the plait bus and 2 a link: CORE_EN and HBM_EN rise; two together start one power-up. -/
def State.wakeUp (s : State) (src : Nat) : State :=
  { s with pwr := { s.pwr with
    core := .resetHeld, coreEn := true, hbmEn := true, thermtrip := false, pendingWake := s.pwr.pendingWake ||| src } }

/-- Whether a wake is heard: in vigil, after a thermal trip once it has cooled. -/
def State.mayWake (s : State) (cool : Bool) : Bool := s.pwr.vigil && !s.pwr.stbyReset && (!s.pwr.thermtrip || cool)

/-- The device's plait-bus address (R520). -/
def State.plaitAddr (s : State) : Nat := 0x68 + s.pwr.plAddr.toNat

/-- PLAIT_WAKE. -/
def execPlaitWake (addr : BitVec 7) (cool : Bool) (s : State) : Host.Outcome State Fault Refusal :=
  if s.mayWake cool && s.pwr.wakePlait && addr.toNat == s.plaitAddr then .next (s.wakeUp 1) else .next s

/-- The µs of unbroken mark in 32 keyed bits, at their longest. -/
def longestMark (b : BitVec 32) : Nat :=
  ((List.range 32).foldl (fun (a : Nat × Nat) i => if b.getLsbD i then (max a.1 (a.2 + 1), a.2 + 1) else (a.1, 0)) (0, 0)).1

/-- Whether a signal is one that GLK_WAKE waits for (R384, R385). -/
def GlkWake.hears (g : GlkWake) (w : WakeSignal) : Bool :=
  match w with
  | .pattern b => if g.mode then decide (10 ≤ longestMark b) else b == wakeWord g.device
  | .mark us => g.mode && decide (10 ≤ us)

/-- LINK_WAKE_DETECT. -/
def execLinkWakeDetect (n : Nat) (w : WakeSignal) (cool : Bool) (s : State) : Host.Outcome State Fault Refusal :=
  if s.mayWake cool && s.glkWake.enable.getLsbD n && s.glkWake.hears w then
    .next ({ s with glkWake := { s.glkWake with hit := true, hitLink := n } }.wakeUp 2)
  else .next s

end Sys2Proof.Machine
end

