-- ==== Sys2Proof/Machine/Debug.lean ====
section
/-! DEFINITION. Holds, steps and breakpoints of the tiles and the stewards (R529-R534). -/
namespace Sys2Proof.Machine

/-- The phrase recorded for a hold: the one that issued last, with its next instruction; 0 where it has ended. -/
def Tile.lastPhrase (T : Tile) : Nat × Nat :=
  match T.slots.getD T.lastIssue none with
  | some ph => (T.lastIssue, ph.pc)
  | none => (0, 0)

/-- The debug hold of a tile as a write of DBG_CTL.hold leaves it (R530, R533). -/
def State.writeHold (s : State) (t : Nat) (hold : Bool) : State :=
  if hold then
    let p := (s.tile t).lastPhrase
    (s.debugHold t 1 p.1 0 p.2).modTile t fun T => { T with dbg := { T.dbg with hold := true } }
  else s.modTile t fun T => { T with dbg := { T.dbg.release with reason := 0 } }

/-- A step of a tile that was held, of a live phrase (R532). -/
def State.stepTile (s : State) (t : Nat) : State :=
  let d := (s.tile t).dbg
  if d.held && (s.phraseAt t d.stepPhrase.toNat).isSome then
    s.modTile t fun T => { T with dbg := { T.dbg with stepPending := true } }
  else s

/-- DBG_CTL of a tile written at debug level 1 or 2: its plain fields, then hold, then step. -/
def State.setTileDbg (s : State) (t v : Nat) : State :=
  let was := (s.tile t).dbg.held
  let s := s.modTile t fun T => { T with dbg := { T.dbg with
    holdEn := bitAt v 29, bpClause := bitAt v 28, stepPhrase := BitVec.ofNat 6 v } }
  let s := s.writeHold t (bitAt v 31)
  if bitAt v 30 && was then s.stepTile t else s

/-- DBG_CTL of a tile written: refused at debug level 0 (R529). -/
def State.writeTileDbg (s : State) (t v : Nat) : State := if s.sec.debug = 0 then s.debugFail else s.setTileDbg t v

/-- A breakpoint from its register. -/
def bpOf (v : Nat) : Bp :=
  { enable := bitAt v 63, anyPhrase := bitAt v 62, phrase := BitVec.ofNat 6 (bitsAt v 55 50), pc := BitVec.ofNat 13 (bitsAt v 44 32) }

/-- DBG_BP of a tile written: refused at debug level 0 (R529). -/
def State.writeTileBp (s : State) (t b v : Nat) : State :=
  if s.sec.debug = 0 then s.debugFail
  else s.modTile t fun T => { T with dbg := { T.dbg with bps := T.dbg.bps.set b (bpOf v) } }

/-- DBG_CTL_HOLD. -/
def execDbgCtlHold (t : Nat) (val : BitVec 32) (s : State) : Host.Outcome State Fault Refusal :=
  if s.hostUp && s.tileUp t then .next (s.writeTileDbg t val.toNat) else .next s

/-- DBG_CTL_STEP. -/
def execDbgCtlStep (t : Nat) (val : BitVec 32) (s : State) : Host.Outcome State Fault Refusal :=
  if s.hostUp && s.tileUp t then .next (s.writeTileDbg t val.toNat) else .next s

/-- The mailbox of a half. -/
def State.mbox (s : State) (east : Bool) : Mbox := if east then s.mboxE else s.mboxW

/-- The mailbox of a half changed. -/
def State.modMbox (s : State) (east : Bool) (f : Mbox → Mbox) : State :=
  if east then { s with mboxE := f s.mboxE } else { s with mboxW := f s.mboxW }

/-- DBG_SW_CTL written: refused below debug level 2; a held steward stands at an instruction boundary, and a step lets it run
one instruction (R534). -/
def State.writeSteward (s : State) (east : Bool) (v : Nat) : State :=
  if s.sec.debug ≠ 2 then s.debugFail
  else
    s.modMbox east fun m =>
      { m with hold := bitAt v 31, held := bitAt v 31
               internal := if bitAt v 31 && bitAt v 30 && m.held then Config.stewardNext m.internal else m.internal }

/-- STEWARD_HOLD. -/
def execStewardHold (h : Half) (val : BitVec 32) (s : State) : Host.Outcome State Fault Refusal :=
  if s.hostUp && s.halfUp (isEast h) then .next (s.writeSteward (isEast h) val.toNat) else .next s

/-- STEWARD_STEP: a write of DBG_SW_CTL that keeps hold and sets step. -/
def execStewardStep (h : Half) (s : State) : Host.Outcome State Fault Refusal :=
  if s.hostUp && s.halfUp (isEast h) then .next (s.writeSteward (isEast h) 0xC0000000) else .next s

end Sys2Proof.Machine
end

