-- ==== Sys2Proof/Machine/LinkKeys.lean ====
section
/-! DEFINITION. Link keys: the set-up between the stewards of two link ends (R356-R362). Hellos and key set-up messages cross
VC3 whole, as outputs and commands of their own: the manual gives them no layout in frames (log entry 14, DESIGN CHOICE). -/
namespace Sys2Proof.Machine

/-- Whether a link has trained since it last went down, in a half that runs (R352). -/
def State.linkTrained (s : State) (n : Nat) : Bool := s.halfUp (linkEast n) && (s.link n).trained

/-- Whether a link carries a key set-up: the hellos have crossed, and it is not refused (R358, R361). -/
def State.linkMet (s : State) (n : Nat) : Bool :=
  s.linkTrained n && s.stewardRuns (linkEast n) && (s.link n).met && (s.link n).state != .refused

/-- Whether an identity certificate chains to Odlor's root through a CA certificate (R453). -/
def certChains (dev ca : List Byte) : Bool :=
  byteAt dev 6 == 3 && byteAt ca 6 == 2 && slice dev 0x18 32 == slice ca 0x38 32 &&
    slice ca 0x18 32 == Config.rootKeyId && slice dev 0x38 32 == keyId (slice dev 0x68 1793) &&
    slice ca 0x38 32 == keyId (slice ca 0x68 1793) &&
    Config.falconVerify (slice ca 0x68 1793) (dev.take 0x770) (slice dev 0x770 1280) &&
    Config.falconVerify Config.rootKey (ca.take 0x770) (slice ca 0x770 1280)

/-- Why a peer whose certificates chain is not accepted on its first message: a refuse reason (R359, R361). -/
def peerRefusal (debugPeer : Bool) (cert report : List Byte) : Option Nat :=
  if !(bitAt (byteAt report 6) 0 &&
      Config.falconVerify (slice cert 0x68 1793) (report.take 0x180) (slice report 0x180 1280)) then some 3
  else if byteAt report 0x6D ≠ 0 && !debugPeer then some 4
  else if leAt report 0x144 2 ≠ 0 then some 5
  else none

/-- A signature by the identity, or zero bytes where it is absent. -/
def State.signOr (s : State) (msg : List Byte) : List Byte × State := if s.hasKey 0 then s.sign msg else (zeros 1280, s)

/-- A set-up whose first message waits for the hopper. -/
def KeySetup.waiting : KeySetup :=
  { nonce := [], dkSeed := [], sentStep1 := [], peerStep1 := none, peerKey := [], peerId := [], ourSecret := [], ourStep2 := [] }

/-- Step 1 with its bytes drawn: the certificates, a report, a nonce and an encapsulation key, sent (R359). -/
def State.sendStep1 (s : State) (n : Nat) (l : List Byte) : State :=
  let nonce := l.take 32
  let (report, s) := (s.checkEntry 0).report nonce 1664
  let ek := fitTo 1568 (Config.mlkemPublic (l.drop 32))
  let dev := s.deviceCert
  let ca := caCert
  let x : KeySetup :=
    { KeySetup.waiting with
      nonce := nonce, dkSeed := l.drop 32, sentStep1 := dev ++ ca ++ report ++ nonce ++ ek }
  (s.emit (.linkKey n (.step1 dev ca report nonce ek))).modLink n fun k => { k with setup := some x }

/-- Step 1: sent once the hopper has given its bytes (R271, R359); what a set-up before it waited for is dropped. -/
def State.startSetup (s : State) (n : Nat) : State :=
  let s := { s with draws := s.liveDraws }
  match s.ask (.linkStart n) with
  | .noData => s.modLink n (Link.refuseSetup 6)
  | .wait => (s.modLink n fun k => { k with setup := some KeySetup.waiting }).await (.linkStart n)
  | .ok l s => s.sendStep1 n l

/-- The transcript of a set-up, with the ciphertexts it covers, as both ends hold it (R360). -/
def KeySetup.transcript (x : KeySetup) (lower : Bool) (cts : List (List Byte)) : List Byte :=
  let p := x.peerStep1.getD []
  if lower then Config.linkTranscript x.sentStep1 p cts else Config.linkTranscript p x.sentStep1 cts

/-- Step 2: the ciphertext to the peer's key and the signature over the transcript, sent (R359). -/
def State.answerSetup (s : State) (n : Nat) (x : KeySetup) (ek rnd : List Byte) : State :=
  let s := s.checkEntry 0
  let lower := decide (beNat s.idKeyId < beNat x.peerId)
  let ct := fitTo 1568 (Config.mlkemCipher ek rnd)
  let (sig, s) := s.signOr (x.transcript lower [ct])
  let y : KeySetup := { x with ourSecret := Config.mlkemSecret ek rnd, ourStep2 := ct ++ sig }
  (s.emit (.linkKey n (.step2 ct sig))).modLink n fun k => { k with lower := lower, setup := some y }

/-- Step 2 with its bytes drawn, by a set-up that has sent its own first message. -/
def State.answerPeer (s : State) (n : Nat) (cert ca report nonce ek rnd : List Byte) : State :=
  match (s.link n).setup with
  | none => s
  | some x =>
    let y : KeySetup := { x with peerStep1 := some (cert ++ ca ++ report ++ nonce ++ ek), peerKey := slice cert 0x68 1793,
                                 peerId := slice cert 0x38 32 }
    s.answerSetup n y ek rnd

/-- The peer's first message checked, and answered once the hopper has given the bytes (R271, R359). -/
def State.checkPeer (s : State) (n : Nat) (cert ca report nonce ek : List Byte) : State :=
  let (chains, s) := s.twice .signature (certChains cert ca)
  match if chains then peerRefusal (s.link n).debugPeer cert report else some 2 with
  | some r => s.modLink n (Link.refuseSetup r)
  | none =>
    match s.ask (.linkAnswer n cert ca report nonce ek) with
    | .noData => s.modLink n (Link.refuseSetup 6)
    | .wait => s.await (.linkAnswer n cert ca report nonce ek)
    | .ok rnd s => s.answerPeer n cert ca report nonce ek rnd

/-- The peer's first message; a peer that starts anew is answered with a set-up of its own. -/
def State.takeStep1 (s : State) (n : Nat) (cert ca report nonce ek : List Byte) : State :=
  let fresh := ((s.link n).setup.map fun x => x.peerStep1.isNone).getD false
  let s := if fresh then s else s.startSetup n
  if (s.link n).setup.isSome then s.checkPeer n cert ca report nonce ek else s

/-- The 64 bytes of both keys (R360). -/
def KeySetup.derive (x : KeySetup) (lower : Bool) (ct : List Byte) : List Byte :=
  let peer := Config.mlkemDecaps x.dkSeed ct
  let ours := x.ourStep2.take 1568
  let t := shake256 64 (x.transcript lower (if lower then [ours, ct] else [ct, ours]))
  shake256 64 ([0x47, 0x4C, 0x4B, 0x31] ++ (if lower then x.ourSecret ++ peer else peer ++ x.ourSecret) ++ t)

/-- Whether a replay buffer holds frames sent under keys. -/
def Link.heldFrames (k : Link) : Bool := k.replayBuf.any fun (f : Frame) => f.vc != 3

/-- A link that has new keys: each direction switches at its next group boundary; one that was keyed before it went down
resends every frame that no ack covers (R362, R372). -/
def Link.keyWith (keys : List Byte) (k : Link) : Link :=
  { k with
    prevKeys := k.keys, keys := some (keys.take 32, keys.drop 32), epoch := k.epoch + 1, state := .keyed, refuse := 0,
    setup := none, resend := if k.state == .keyed || !k.heldFrames then k.resend else k.replayBuf }

/-- The peer's second message (R359): its signature is checked, the keys derived and stored (R360, R454). -/
def State.takeStep2 (s : State) (n : Nat) (ct sig : List Byte) : State :=
  match (s.link n).setup with
  | none => s
  | some x =>
    if x.peerStep1.isNone then s
    else
      let lower := (s.link n).lower
      let (ok, s) := s.twice .signature (Config.falconVerify x.peerKey (x.transcript lower [ct]) sig)
      if !ok then s.modLink n (Link.refuseSetup 3)
      else
        let keys := x.derive lower ct
        (s.setKey (20 + n) keys (keyDigest keys)).modLink n (Link.keyWith keys)

/-- LINK_KEY_SETUP_MESSAGE. -/
def execLinkKeySetupMessage (n : Nat) (m : KeyMsg) (s : State) : Host.Outcome State Fault Refusal :=
  if !s.linkMet n then .next s
  else
    match m with
    | .step1 cert ca report nonce ek => .next (s.takeStep1 n cert ca report nonce ek).authDue
    | .step2 ct sig => .next (s.takeStep2 n ct sig).authDue

/-- LINK_KEY_SETUP_RETRY: an open keyless link whose set-up failed starts it again (R361). -/
def execLinkKeySetupRetry (n : Nat) (s : State) : Host.Outcome State Fault Refusal :=
  if s.linkMet n && (s.link n).keys.isNone && (s.link n).setup.isNone then .next (s.startSetup n) else .next s

/-- Whether both directions of a link use the keys of its current epoch. -/
def Link.switched (k : Link) : Bool := k.txEpoch == k.epoch.toNat && k.rxEpoch == k.epoch.toNat

/-- A rekey started (R362): of a keyed link that no set-up occupies. -/
def State.rekey (s : State) (n : Nat) : State :=
  let k := s.link n
  if s.linkMet n && k.state == .keyed && k.setup.isNone && k.switched then s.startSetup n else s

/-- LINK_HELLO: the peer's figures are taken; ends whose protect values differ refuse, others set up keys (R358, R359). -/
def execLinkHello (n : Nat) (hello : Hello) (s : State) : Host.Outcome State Fault Refusal :=
  if !s.linkTrained n then .next s
  else
    let s := s.modLink n fun k =>
      { k with peerId := hello.devId, peerRole := hello.role.toNat, peerKeyId := fitTo 32 hello.keyId, met := true }
    if hello.protect != (s.link n).protectNow then
      .next (s.modLink n fun k => { k with state := .refused, refuse := 1, keys := none, prevKeys := none, epoch := 0, setup := none })
    else if s.linkMet n && (s.link n).keys.isNone && (s.link n).setup.isNone then .next (s.startSetup n)
    else .next s

end Sys2Proof.Machine
end

