-- ==== Sys2Proof/Machine/Draws.lean ====
section
/-! DEFINITION. The internal requests that wait for the hoppers, served in order of request as units come (R271, R274). -/
namespace Sys2Proof.Machine

/-- Whether what a request is for goes on now: its steward works. -/
def State.drawTurn (s : State) (r : DrawReq) : Bool :=
  match r with
  | .session _ _ => s.chiefRuns
  | .challenge => s.hostUp
  | .linkStart n => s.linkMet n
  | .linkAnswer n .. => s.linkMet n

/-- A request that has its bytes (R359, R465, R486). -/
def State.drawn (s : State) (r : DrawReq) (l : List Byte) : State :=
  match r with
  | .session id input =>
    match s.cmd id with
    | some d => if s.alarmed then s.finish id stAlarmed 0 0 0 else s.sessionStart id (d.le 0x18 8) input l
    | none => s
  | .challenge => s.takeNonce l
  | .linkStart n => s.sendStep1 n l
  | .linkAnswer n cert ca report nonce ek => s.answerPeer n cert ca report nonce ek l

/-- The requests of a list served in order, as far as the units go. -/
def State.serveList : List DrawReq → State → State
  | [], s => { s with draws := [] }
  | r :: l, s =>
    if !s.drawLive r then State.serveList l s
    else
      match if s.drawTurn r then s.draw r.size else .wait with
      | .wait => { s with draws := r :: l }
      | .noData => State.serveList l (s.failDraw r)
      | .ok b s => State.serveList l (s.drawn r b)

/-- The internal requests that wait, served. -/
def State.serveDraws (s : State) : State := State.serveList s.draws s

end Sys2Proof.Machine
end

