-- ==== Sys2Proof/Machine/Entropy.lean ====
section
/-! DEFINITION. The noise cells and the raw capture (R255-R270, R277). The cells' bits are operands of their commands; a test
that fails before a block has its bits is a command of its own. -/
namespace Sys2Proof.Machine

/-- Whether a cell lies in the East half (R255). -/
def cellEast (cell : Nat) : Bool := 16 ≤ cell

/-- A noise cell. -/
def State.cell (s : State) (c : Nat) : NoiseCell := (s.hop (cellEast c)).cells.getD (c % 16) NoiseCell.reset

/-- A noise cell changed. -/
def State.modCell (s : State) (c : Nat) (f : NoiseCell → NoiseCell) : State :=
  s.modHop (cellEast c) fun h => { h with cells := h.cells.modify (c % 16) f }

/-- Whether a cell exists and is powered. -/
def State.cellUp (s : State) (c : Nat) : Bool := decide (c < 32) && s.halfUp (cellEast c)

/-- The conditioned output of a block (R261). -/
def condition (cell : Nat) (raw : List Byte) : List Byte := shake256 32 (BitVec.ofNat 8 cell :: raw)

/-- The bits of raw bytes, in the order they came (R261). -/
def rawBits (l : List Byte) : List Bool := l.flatMap fun b => tab 8 fun i => b.getLsbD i

/-- The continuous tests at the next bit (R258): a run goes on or begins; a window has 1,024 bits. -/
def HealthAt.next (h : HealthAt) (b : Bool) : HealthAt :=
  let new := h.pos % 1024 == 0
  { last := some b, run := if h.last = some b then h.run + 1 else 1, first := if new then b else h.first,
    seen := if new then 1 else h.seen + b2n (b == h.first), pos := h.pos + 1 }

/-- The tests along bits under the cutoffs: where they stand after them, or which of RCT and APT fails at the first bit that
fails one. -/
def healthScan (apt rct : Nat) : List Bool → HealthAt → HealthAt ⊕ (Bool × Bool)
  | [], h => .inl h
  | b :: l, h =>
    let g := h.next b
    if rct ≤ g.run || apt ≤ g.seen then .inr (decide (rct ≤ g.run), decide (apt ≤ g.seen)) else healthScan apt rct l g

/-- A cell isolated; the third time within 1,000 ms it is locked out (R264, R266). -/
def State.isolate (s : State) (c : Nat) : State :=
  let times := ((s.cell c).isolations.filter fun t => decide (s.timer ≤ t + 1000000000)) ++ [s.timer]
  let out := decide (3 ≤ times.length)
  let s := s.modCell c fun k => { k with st := if out then .locked else .isolated, pend := none, isolations := times }
  if out then s.modHop (cellEast c) fun h => { h with lockouts := satAdd 16 h.lockouts 1 } else s

/-- A continuous test failed: counted in HOP_ERR, the cell isolated (R264). -/
def State.testFails (s : State) (cell : Nat) (rct apt : Bool) : State :=
  let s := s.modHop (cellEast cell) fun h => { h with rct := satAdd 16 h.rct (b2n rct), apt := satAdd 16 h.apt (b2n apt) }
  (s.isolate cell).hopCheck (cellEast cell)

/-- A block's end: the cutoffs that the firmware last set act from here (R559). -/
def State.cutoffs (s : State) (cell : Nat) : State :=
  let h := s.hop (cellEast cell)
  s.modCell cell fun k => { k with apt := h.aptCutoff, rct := h.rctCutoff }

/-- ENTROPY_BLOCK_COMPLETE: the tests run on the block's bits; where none fails, the block before enters the hopper and this
one's output waits (R258, R261, R262, R264). -/
def execEntropyBlockComplete (cell : Nat) (raw : List Byte) (s : State) : Host.Outcome State Fault Refusal :=
  let k := s.cell cell
  if s.cellUp cell && k.st == .healthy then
    let l := fitTo 256 raw
    match healthScan k.apt k.rct (rawBits l) k.health with
    | .inr f => .next (s.testFails cell f.1 f.2)
    | .inl g =>
      let s := match k.pend with
        | some u => s.modHop (cellEast cell) (Hopper.offer u)
        | none => s
      .next ((s.modCell cell fun k => { k with pend := some (condition cell l), health := g }).cutoffs cell).serveDraws
  else .next s

/-- HEALTH_TEST_FAIL: a test that fails before its block has all its bits (R264). -/
def execHealthTestFail (cell : Nat) (test : HealthTest) (s : State) : Host.Outcome State Fault Refusal :=
  if s.cellUp cell && (s.cell cell).st == .healthy then .next (s.testFails cell (test == .rct) (test == .apt)) else .next s

/-- CELL_RETEST (R265). -/
def execCellRetest (cell : Nat) (s : State) : Host.Outcome State Fault Refusal :=
  if s.cellUp cell && (s.cell cell).st == .isolated then .next (s.modCell cell fun k => { k with st := .retest })
  else .next s

/-- The start-up test on 1,024 bits under the cutoffs in force: where the tests stand after it, if it passes (R258). -/
def Hopper.startup (h : Hopper) (bits : List Byte) : Option HealthAt :=
  (healthScan h.aptCutoff h.rctCutoff (rawBits (fitTo 128 bits)) HealthAt.start).getLeft?

/-- STARTUP_TEST_COMPLETE: a start-up test or a retest ends (R258, R259, R265). -/
def execStartupTestComplete (cell : Nat) (bits : List Byte) (s : State) : Host.Outcome State Fault Refusal :=
  let e := cellEast cell
  if s.cellUp cell && ((s.cell cell).st == .startup || (s.cell cell).st == .retest) then
    match (s.hop e).startup bits with
    | some g =>
      .next (((s.modCell cell fun k => { k with st := .healthy, pend := none, health := g }).cutoffs cell).hopCheck e).serveDraws
    | none =>
      .next (((s.modHop e fun h => { h with startupErr := satAdd 16 h.startupErr 1 }).isolate cell).hopCheck e)
  else .next s

/-- ENT_FAIL_PERSIST: the alarm source signals once for an episode (R270). -/
def execEntFailPersist (h : Half) (s : State) : Host.Outcome State Fault Refusal :=
  let e := isEast h
  if s.halfUp e && (s.hop e).entFail && !(s.hop e).alarmed then
    .next ((s.modHop e fun h => { h with alarmed := true }).signal 5)
  else .next s

/-- HOP_CMD.retest: every locked-out cell begins a retest (R266). -/
def State.hopRetest (s : State) (east : Bool) : State :=
  s.modHop east fun h =>
    { h with cells := h.cells.map fun (k : NoiseCell) => if k.st = .locked then { k with st := .retest } else k }

/-- HOP_CMD_RETEST. -/
def execHopCmdRetest (h : Half) (s : State) : Host.Outcome State Fault Refusal :=
  if s.halfUp (isEast h) then .next (s.hopRetest (isEast h)) else .next s

/-- HOP_CMD.capture: ignored unless full debug is open (R277). -/
def State.hopCapture (s : State) (east : Bool) : State :=
  let h := s.hop east
  if s.sec.debug ≠ 2 || h.capturing.isSome then s
  else
    let c := h.capCell.toNat + 16 * b2n east
    let s := s.modHop east fun h => { h with capturing := some (h.capCell.toNat, 64 * h.capAddr.toNat) }
    (s.modCell c fun k => { k with st := .capture, pend := none }).hopCheck east

/-- HOP_CMD_CAPTURE. -/
def execHopCmdCapture (h : Half) (s : State) : Host.Outcome State Fault Refusal :=
  if s.halfUp (isEast h) then .next (s.hopCapture (isEast h)) else .next s

/-- RAW_CAPTURE_COMPLETE: the bits are written, the cell begins a retest (R277); nothing goes to Jaset's own part (R390). -/
def execRawCaptureComplete (h : Half) (bits : List Byte) (s : State) : Host.Outcome State Fault Refusal :=
  let e := isEast h
  match (s.hop e).capturing with
  | some (c, a) =>
    if s.halfUp e then
      let l := fitTo 131072 bits
      let s := if userHbm a l.length then s.ownWrite a l else s
      let s := s.modHop e fun h => { h with capturing := none }
      .next (s.modCell (c + 16 * b2n e) fun k => { k with st := .retest })
    else .next s
  | none => .next s

end Sys2Proof.Machine
end

