-- ==== Sys2Proof/Machine/LinkFrames.lean ====
section
/-! DEFINITION. Frames, groups and their tags; the transmitter and the receiver of a link (R353-R357, R362-R368). -/
namespace Sys2Proof.Machine

/-! ## Bytes and tags (R353, R356, R357) -/

/-- A frame's header. -/
def frameHead (f : Frame) : List Byte :=
  leBytes 8 (f.fsn.toNat * 2 ^ 48 + f.ack.toNat * 2 ^ 32 + f.vc.toNat * 2 ^ 30 + b2n f.cls * 2 ^ 29 + b2n f.resp * 2 ^ 28 +
    f.kind.toNat * 2 ^ 26 + b2n f.last * 2 ^ 25 + b2n f.epoch * 2 ^ 24 + f.len.toNat * 2 ^ 17 + f.credits.toNat * 2 ^ 8)

/-- A frame's payload as it stands on the wire: 256 bytes of a data frame. -/
def frameBody (f : Frame) : List Byte := if f.kind = 0 then fitTo 256 f.payload else []

/-- The nonce of a group. -/
def groupNonce (epoch counter : Nat) : List Byte := leBytes 4 epoch ++ leBytes 8 counter

/-- The tag of a group as its frames stand on the wire, keyless or under a key. -/
def groupTag (key : Option (List Byte)) (protect : Bool) (epoch counter : Nat) (fs : List Frame) : List Byte :=
  match key with
  | none => shake256 16 (fs.flatMap fun f => frameHead f ++ frameBody f)
  | some k =>
    if protect then gcmTag k (groupNonce epoch counter) (fs.flatMap fun f => frameHead f ++ frameBody f) []
    else gcmTag k (groupNonce epoch counter) (fs.flatMap frameHead) (fs.flatMap frameBody)

/-- The keys of an epoch. -/
def Link.keysAt (k : Link) (e : Nat) : Option (List Byte × List Byte) := if e = k.epoch.toNat then k.keys else k.prevKeys

/-- The key this end sends under. -/
def Link.txKey (k : Link) : Option (List Byte) := (k.keysAt k.txEpoch).map fun p => if k.lower then p.1 else p.2

/-- The key this end receives under, in an epoch. -/
def Link.rxKey (k : Link) (e : Nat) : Option (List Byte) := (k.keysAt e).map fun p => if k.lower then p.2 else p.1

/-- A frame as it goes out in the open group: its payload encrypted on a keyed link that does not only protect integrity. -/
def Link.onWire (k : Link) (f : Frame) : Frame :=
  match k.txKey with
  | none => f
  | some key =>
    if k.protectNow || f.kind ≠ 0 then f
    else
      let ctr := 2 + 16 * k.group.countP fun (g : Frame) => g.kind == 0
      { f with payload :=
          List.zipWith (· ^^^ ·) (frameBody f) (gcmStream (aesKey key) (groupNonce k.txEpoch k.txGroup) ctr 256) }

/-! ## Channels and credits (R353, R366, R377) -/

/-- The channel of a frame or a message, in the order of the credit bits. -/
def channelOf (vc : BitVec 2) (resp high : Bool) : Nat :=
  match vc.toNat with
  | 0 => 2 * b2n resp + b2n high
  | 1 => 4 + b2n high
  | 2 => 6 + b2n high
  | _ => 8

/-- Whether a message to device d runs in the high class over link n (R377). -/
def State.highClass (s : State) (n d : Nat) : Bool :=
  let own : Int := s.devId
  Int.sign ((s.link n).peerId.toNat - own) != Int.sign (d - own)

/-- The channel of a message at link n. -/
def State.msgChannel (s : State) (n : Nat) (m : Msg) : Nat := channelOf m.vc m.resp (s.highClass n m.dst)

/-- The credits a frame returns: at most one frame of each channel, none while the link holds (R353, R372). -/
def Link.returned (k : Link) : BitVec 9 :=
  if k.state == .holding || k.state == .failed then 0
  else BitVec.ofNat 9 (ofBits 9 fun c => decide (0 < k.owed.getD c 0))

/-- Those credits no longer owed. -/
def Link.paid (k : Link) (r : BitVec 9) : Link := { k with owed := k.owed.mapIdx fun c v => if r.getLsbD c then v - 1 else v }

/-! ## Transmitting (R355, R362, R363, R365, R368) -/

/-- A new epoch taken at a group boundary. -/
def Link.switchTx (k : Link) : Link :=
  if k.group.isEmpty && k.txEpoch != k.epoch.toNat then { k with txEpoch := k.epoch.toNat, txGroup := 0 } else k

/-- A frame sent; it closes the group where it says so. -/
def State.sendFrame (s : State) (n : Nat) (f : Frame) : State :=
  let k := s.link n
  let g := k.onWire { f with epoch := k.txEpoch % 2 == 1 }
  let gs := k.group ++ [g]
  let s := s.emit (.linkFrame n g)
  if g.last then
    (s.emit (.linkTag n (groupTag k.txKey k.protectNow k.txEpoch k.txGroup gs))).modLink n fun k =>
      { k with group := [], txGroup := k.txGroup + 1 }
  else s.modLink n fun k => { k with group := gs }

/-- A header-only frame: idle, or a NAK. Either closes its group. -/
def State.sendBare (s : State) (n : Nat) (kind : BitVec 2) (ack : BitVec 16) : State :=
  let k := s.link n
  let r := k.returned
  (s.modLink n fun k => k.paid r).sendFrame n
    { fsn := k.nextFsn, ack := ack, vc := 0, cls := false, resp := false, kind := kind, last := true, epoch := false, len := 0,
      credits := r, payload := [] }

/-- Bytes of the messages of one channel packed in order into a room: the payload, the messages that end in it, the queue
left. -/
def packMsgs (mine : Msg → Bool) : Nat → List Msg → List Byte × List Msg × List Msg
  | _, [] => ([], [], [])
  | room, m :: q =>
    if !mine m then
      let (b, e, r) := packMsgs mine room q
      (b, e, m :: r)
    else if m.wire.length ≤ room then
      let (b, e, r) := packMsgs mine (room - m.wire.length) q
      (m.wire ++ b, m :: e, r)
    else (m.wire.take room, [], { m with wire := m.wire.drop room } :: q)

/-- Frames that the replay buffer holds, 128 KiB of them (R365). -/
def replayRoom : Nat := 496

/-- Whether a link carries data frames at all: open, or keyed; one that holds keeps them (R356, R372). -/
def Link.carries (k : Link) : Bool := k.state == .opened || k.state == .keyed

/-- Whether new frames may be sent: the link carries them and is not being switched off, what must be resent has been, the
replay buffer is not full (R363, R365, R371). -/
def Link.sendsNew (k : Link) : Bool :=
  k.carries && !k.stopping && k.resend.isEmpty && decide (k.replayBuf.length < replayRoom)

/-- Whether a frame may be resent: on a keyed link, and VC3's on an open one (R356, R372). -/
def Link.mayResend (k : Link) (f : Frame) : Bool := k.state == .keyed || (k.state == .opened && f.vc == 3)

/-- The oldest message of a VC that may be sent now, with its channel. -/
def State.readyMsg (s : State) (n : Nat) (vc : BitVec 2) : Option Msg :=
  let k := s.link n
  if k.sendsNew && (vc == 3 || s.linkData n) then
    k.txq.find? fun m => m.vc == vc && decide (0 < k.credits.getD (s.msgChannel n m) 0)
  else none

/-- The message that the next new frame begins with: VC2, then VC0, VC1 and VC3 in round-robin order (R368). -/
def State.nextMsg (s : State) (n : Nat) : Option Msg :=
  let order : List (BitVec 2) := [0, 1, 3]
  let r := (s.link n).rr
  (s.readyMsg n 2).or ((order.rotateLeft r).findSome? (s.readyMsg n))

/-- Messages that have been sent: counted, and recorded where this device's tiles or controllers send them (R367, R441). -/
def State.countSent (s : State) (n : Nat) (m : Msg) : State :=
  if m.vc = 3 then s
  else
    let s := s.modLink n fun k => { k with txSeq := k.txSeq + 1 }
    if m.src = s.devId then s.recordMsg false n m.vc (s.link n).txSeq.toNat (wireBytes m) else s

/-- The place in the round-robin order after a VC. -/
def rrAfter (vc : BitVec 2) (rr : Nat) : Nat := match vc.toNat with
  | 0 => 1
  | 1 => 2
  | 3 => 0
  | _ => rr

/-- A new data frame that begins with a message, packed, kept in the replay buffer and sent; it closes its group as the
16th, or on VC2 (R354, R355, R365). -/
def State.sendData (s : State) (n : Nat) (m : Msg) : State :=
  let k := s.link n
  let c := s.msgChannel n m
  let (b, e, q) := packMsgs (fun x => s.msgChannel n x == c) 256 k.txq
  let ended := e.map fun (x : Msg) => { x with wire := wireBytes x }
  let r := k.returned
  let f : Frame :=
    { fsn := k.nextFsn, ack := k.rxFsn - 1, vc := m.vc, cls := s.highClass n m.dst, resp := m.vc == 0 && m.resp, kind := 0,
      last := m.vc == 2 || k.group.length == 15, epoch := k.txEpoch % 2 == 1, len := BitVec.ofNat 7 (b.length / 4), credits := r, payload := b }
  let s := s.modLink n fun k =>
    { k.paid r with nextFsn := k.nextFsn + 1, replayBuf := k.replayBuf ++ [f], txq := q, rr := rrAfter m.vc k.rr
                    credits := k.credits.modify c (· - 1) }
  (ended.foldl (fun s x => s.countSent n x) s).sendFrame n f

/-- A rekey once either counter has come half way to its limit (R362). -/
def State.rekeyDue (s : State) (n : Nat) : State :=
  let k := s.link n
  if 2 ^ 47 ≤ k.txGroup || 2 ^ 47 ≤ k.rxGroup then s.rekey n else s

/-- A frame resent with the header it had; where it would be its group's 16th and does not say so, an idle frame closes the
group before it (R355, R363; log entry 98, DEDUCED). -/
def State.resendFrame (s : State) (n : Nat) (f : Frame) (r : List Frame) : State :=
  let k := s.link n
  if k.group.length = 15 && !f.last then s.sendBare n 1 (k.rxFsn - 1)
  else (s.modLink n fun k => { k with resend := r }).sendFrame n f

/-- The frame that is to be resent next, where it may be now. -/
def Link.nextResend (k : Link) : Option (Frame × List Frame) :=
  match k.resend with
  | f :: r => if k.mayResend f then some (f, r) else none
  | [] => none

/-- A keyed link before its keys are used: an entry whose tag fails is erased, and the link retrains (R456, R458). -/
def State.checkLink (s : State) (n : Nat) : State := if (s.link n).state == .keyed then s.checkEntry (20 + n) else s

/-- LINK_FRAME_TRANSMIT: what goes out at one frame boundary (R368); a NAK that is owed goes after what must be resent (log
entry 98, DEDUCED). -/
def execLinkFrameTransmit (n : Nat) (s : State) : Host.Outcome State Fault Refusal :=
  let s := (s.checkLink n).authDue
  if !s.linkTrained n then .next s
  else
    let s := (s.modLink n Link.switchTx).rekeyDue n
    let k := s.link n
    match k.nextResend, k.sendNak with
    | some (f, r), _ => .next (s.resendFrame n f r)
    | none, some fsn =>
      .next ((s.modLink n fun k => { k with sendNak := none, retries := satAdd 16 k.retries 1 }).sendBare n 2 fsn)
    | none, none =>
        match s.nextMsg n with
        | some m => .next (s.sendData n m)
        | none => .next (s.sendBare n 1 (k.rxFsn - 1))

/-! ## Receiving (R355, R363-R367) -/

/-- Whether sequence number a is b or comes after it. -/
def fsnFrom (a b : BitVec 16) : Bool := decide ((a - b).toNat < 0x8000)

/-- Frames that an ack does not cover. -/
def Link.acked (ack : BitVec 16) (k : Link) : Link :=
  let keep := fun (f : Frame) => fsnFrom f.fsn (ack + 1)
  { k with replayBuf := k.replayBuf.filter keep, resend := k.resend.filter keep }

/-- Credit that a frame returns. -/
def Link.credited (c : BitVec 9) (k : Link) : Link :=
  { k with credits := k.credits.mapIdx fun i v => if c.getLsbD i then v + 1 else v }

/-- A NAK that names a sequence number: everything before it has arrived, everything from it on is sent again; the eighth
in a row for it takes the link down (R363, R364). -/
def Link.takeNak (fsn : BitVec 16) (k : Link) : Link :=
  let k := k.acked (fsn - 1)
  let c := if k.nakFsn = some fsn then k.nakCount + 1 else 1
  let k := { k with nakFsn := some fsn, nakCount := c, resend := k.replayBuf }
  if 8 ≤ c then k.goesDown else k

/-- The whole messages that stand first in a channel's bytes, each with the bytes it takes, and what is left. -/
def splitMsgs : Nat → List Byte → List (Msg × List Byte) × List Byte
  | 0, l => ([], l)
  | n + 1, l =>
    match Config.wireNext l with
    | some (m, k) =>
      if k = 0 || l.length < k then ([], l)
      else
        let (ms, r) := splitMsgs n (l.drop k)
        ((m, l.take k) :: ms, r)
    | none => ([], l)

/-- The payload of a data frame received in sequence: the messages that end in it are delivered, and its buffer is drained
once the core has taken them (R354, R366, R367). -/
def State.takeData (s : State) (n : Nat) (f : Frame) : State :=
  let c := channelOf f.vc f.resp f.cls
  let l := (s.link n).parts.getD c [] ++ (frameBody f).take (4 * f.len.toNat)
  let (ms, rest) := splitMsgs l.length l
  let s := s.modLink n fun k => { k with parts := k.parts.set c rest }
  let s := ms.foldl (fun s (m : Msg × List Byte) =>
    s.deliver n { m.1 with vc := f.vc, resp := f.resp, wire := m.2, buf := some (f.fsn, c) }) s
  s.modLink n fun k => k.drained (some (f.fsn, c))

/-- One frame of a verified group, its payload in the clear. A frame out of sequence comes after a group that was discarded,
and is discarded with it (R363). -/
def State.takeFrame (s : State) (n : Nat) (f : Frame) : State :=
  if !s.linkTrained n || f.kind = 3 || f.fsn ≠ (s.link n).rxFsn then s
  else if f.kind = 2 then s.modLink n fun k => (k.credited f.credits).takeNak f.ack
  else
    let s := s.modLink n fun k => (k.acked f.ack).credited f.credits
    if f.kind = 1 then s
    else
      let s := s.modLink n fun k => { k with rxFsn := k.rxFsn + 1 }
      if f.vc = 3 || s.linkData n then s.takeData n f
      else s.modLink n fun k => k.drained (some (f.fsn, channelOf f.vc f.resp f.cls))

/-- The epoch and the counter of a group received: a first header with the other epoch bit begins the new epoch (R362). -/
def Link.rxEpochOf (k : Link) (g : RxGroup) : Nat × Nat :=
  let e := k.epoch.toNat
  let bit := (g.frames.head?.map fun (f : Frame) => f.epoch).getD false
  if k.rxEpoch ≠ e && bit == (e % 2 == 1) then (e, 0) else (k.rxEpoch, k.rxGroup)

/-- The frames of a group with their payloads decrypted, the first of them after j data frames (R357). -/
def clearFrames (key nonce : List Byte) : Nat → List Frame → List Frame
  | _, [] => []
  | j, f :: r =>
    if f.kind = 0 then
      { f with payload := List.zipWith (· ^^^ ·) (frameBody f) (gcmStream (aesKey key) nonce (2 + 16 * j) 256) } ::
        clearFrames key nonce (j + 1) r
    else f :: clearFrames key nonce j r

/-- The frames of a verified group as the receiver reads them: decrypted on a keyed link that does not only protect integrity. -/
def Link.inClear (k : Link) (e c : Nat) (fs : List Frame) : List Frame :=
  match k.rxKey e with
  | none => fs
  | some key => if k.protectNow then fs else clearFrames key (groupNonce e c) 0 fs

/-- A group that is discarded: a NAK is owed that names its first number (R363). -/
def Link.discard (k : Link) : Link := { k with sendNak := k.sendNak.or (some k.rxFsn) }

/-- LINK_GROUP_RECEIVE: a group that fails is discarded and answered with a NAK; of one that verifies, the frames act. -/
def execLinkGroupReceive (n : Nat) (g : RxGroup) (s : State) : Host.Outcome State Fault Refusal :=
  let s := (s.checkLink n).authDue
  if !s.linkTrained n then .next s
  else
    let k := s.link n
    let (e, c) := k.rxEpochOf g
    let s := s.modLink n fun k => { k with rxEpoch := e, rxGroup := c + 1 }
    if !g.fecOk then .next (s.modLink n fun k => { k with uncorr := satAdd 16 k.uncorr 1 }.discard)
    else if !(groupTag (k.rxKey e) k.protectNow e c g.frames == g.tag && s.agrees .tag) then
      .next ((s.disagree .tag).modLink n fun k => { k with tagFail := satAdd 16 k.tagFail 1 }.discard).authDue
    else .next ((k.inClear e c g.frames).foldl (fun s f => s.takeFrame n f) s)

/-- LINK_NAK: a NAK as the transmitter takes it. -/
def execLinkNak (n : Nat) (fsn : BitVec 16) (s : State) : Host.Outcome State Fault Refusal :=
  if s.linkTrained n then .next (s.modLink n (Link.takeNak fsn)) else .next s

end Sys2Proof.Machine
end

