-- ==== Sys2Proof/Machine/Firmware.lean ====
section
/-! DEFINITION. Firmware update: staging, forwarding, activation, confirmation, recovery (R547-R568). -/
namespace Sys2Proof.Machine

/-! ## The manifest (R549-R551) -/

/-- Whether two parts share a byte. -/
def partsMeet (p q : Nat × Nat × Nat × List Byte) : Bool :=
  decide (p.2.1 < q.2.1 + q.2.2.1) && decide (q.2.1 < p.2.1 + p.2.2.1)

/-- The fields of a part entry with whether each is well formed, by manifest offset (R549, R550). -/
def partChecks (m : List Byte) (i : Nat) : List (Nat × Bool) :=
  let b := 0x60 + 96 * i
  if 7 ≤ i then [(b, allZero (slice m b 96))]
  else
    let p := manifestPart m i
    let before := (List.range i).map (manifestPart m)
    [(b, decide (1 ≤ p.1 ∧ p.1 ≤ 7) && !before.any fun q => q.1 == p.1),
     (b + 2, allZero (slice m (b + 2) 6)),
     (b + 8, p.2.1 % 4096 == 0 && decide (0xC00 ≤ p.2.1) && decide (p.2.1 + p.2.2.1 ≤ leAt m 0x10 8) &&
       !before.any fun q => partsMeet p q),
     (b + 0x10, p.2.2.1 != 0),
     (b + 0x58, allZero (slice m (b + 0x58) 8))]

/-- Check 4: the offset of the first field that is not as R549 and R550 say. -/
def manifestBad (m : List Byte) : Option Nat :=
  let l := [(0, slice m 0 4 == [0x4E, 0x46, 0x57, 0x31]), (4, leAt m 4 2 == 1), (6, decide (leAt m 6 2 ≤ 1)),
      (8, leAt m 8 2 == 7), (0xA, leAt m 0xA 2 == 0),
      (0x10, decide (0xC00 ≤ leAt m 0x10 8) && decide (leAt m 0x10 8 ≤ 0x8000000)), (0x19, allZero (slice m 0x19 3)),
      (0x28, allZero (slice m 0x28 24))] ++ (List.range 16).flatMap (partChecks m) ++
    [(0x660, decide (leAt m 0x660 2 ≤ 16)), (0x662, allZero (slice m 0x662 6)), (0x6A8, allZero (slice m 0x6A8 88))]
  (l.find? fun x => !x.2).map (·.1)

/-- Checks 4 and 5, and check 6's issuer: a status with the manifest offset it reports. -/
def State.manifestBefore (s : State) (m : List Byte) : Option (Nat × Nat) :=
  match manifestBad m with
  | some o => some (stFwHdr, o)
  | none =>
    if byteAt m 0x18 ≠ 0xB0 then some (stFwCompat, 0x18)
    else if leAt m 0x1C 4 < s.fw.floor.toNat then some (stFwCompat, 0x1C)
    else if slice m 0x40 32 ≠ keyId Config.firmwareKey then some (stFwSig, 0)
    else none

/-- Checks 4 to 6: a status with the manifest offset it reports; the signature is verified on two paths (R484, R551). -/
def State.manifestRefusal (s : State) (m : List Byte) : Option (Nat × Nat) × State :=
  match s.manifestBefore m with
  | some r => (some r, s)
  | none =>
    let (ok, s) := s.twice .signature (Config.falconVerify Config.firmwareKey (m.take 0x700) (slice m 0x700 1280))
    (if ok then none else some (stFwSig, 0), s)

/-! ## The flash (R547, R548) -/

/-- Where a slot begins in the flash; each is 128 MiB. -/
def slotBase (one : Bool) : Nat := if one then 0x08000000 else 0

/-- Where the slot records' two copies and the settings copies begin, and the end of what Jaset writes. -/
def recordsBase : Nat := 0x10000000

/-- The settings copies. -/
def settingsBase : Nat := 0x10010000

/-- Jaset writes nothing at or beyond this address. -/
def flashEnd : Nat := 0x10100000

/-- Bytes of an image programmed into a slot from an offset. -/
def State.program (s : State) (one : Bool) (o : Nat) (l : List Byte) : State := s.emit (.flashWrite (slotBase one + o) l)

/-- The slot that is free for staging. -/
def Fw.free (f : Fw) : Bool := !f.activeSlot

/-- A slot that holds an image, in a state. -/
def slotWith (state : Nat) (image : List Byte) : FwSlot :=
  { rollback := BitVec.ofNat 32 (leAt image 0x1C 4), state := state, format := leAt image 0xC 2, image := image }

/-- Whether the state of the firmware lets a stage or an activation begin (check 2). -/
def Fw.idle (f : Fw) : Bool := f.stage.isNone && (f.state == 0 || f.state == 2) && !f.pend

/-! ## Forwarding (R554-R556) -/

/-- The next devices an image is forwarded to, as fw_next index and device ID. -/
def State.forwardTo (s : State) (m : List Byte) : List (Nat × Nat) :=
  match s.weave.installed.bind (·.links) with
  | none => []
  | some r =>
    if leAt m 6 2 % 2 = 0 then []
    else
      (r.fwNext.zipIdx.map fun x => (x.2, x.1)).filter fun x => x.2 != 0xFFFF &&
        (List.range (leAt m 0x660 2)).any fun j =>
          decide (leAt m (0x668 + 4 * j) 2 ≤ x.2) && decide (x.2 ≤ leAt m (0x66A + 4 * j) 2)

/-- A stream given up: its next device counts as refused (R556). -/
def Fw.giveUp (i : Nat) (f : Fw) : Fw := { f with streams := f.streams.filter (· != i), refused := f.refused ||| (1 <<< i) }

/-- VC3 messages that carry bytes to a device, in order; none where it is unreachable (R554). -/
def State.sendBlocks (s : State) (dev : Nat) : List (List Byte) → Option State
  | [] => some s
  | b :: r =>
    (s.sendMsg false false
      { id := 0, vc := 3, resp := false, dst := dev, dstNode := 0, src := s.devId, srcNode := 0, body := .management b, wire := [],
        buf := none }).bind fun s => s.sendBlocks dev r

/-- An image sent on to the next devices: to each the manifest, then the image in 64 KiB blocks; one that no link reaches counts
as refused (R554, R556). -/
def State.forward (s : State) (image : List Byte) : State :=
  let blocks := image.take 0xC00 :: chunks 65536 image
  let dests := s.forwardTo image
  let s := { s with fw := { s.fw with streams := dests.map (·.1), accepted := 0, refused := 0 } }
  dests.foldl (fun s x => (s.sendBlocks x.2 blocks).getD { s with fw := s.fw.giveUp x.1 }) s

/-- FW_FORWARD_ABANDON: the next device counts as refused (R556). -/
def execFwForwardAbandon (i : Nat) (s : State) : Host.Outcome State Fault Refusal :=
  if s.fw.streams.contains i then .next { s with fw := s.fw.giveUp i } else .next s

/-- The answers of the next devices, as their checks 6 are decided (R553, R555). -/
def Fw.answered (refusals : BitVec 4) (f : Fw) : Fw :=
  let bits := fun (no : Bool) => BitVec.ofNat 4 (ofBits 4 fun i => f.streams.contains i && refusals.getLsbD i == no)
  { f with streams := [], accepted := f.accepted ||| bits false, refused := f.refused ||| bits true }

/-! ## Staging (R551-R553) -/

/-- A stage ended with a status and its details. -/
def State.stageEnd (s : State) (id status d0 d1 d2 : Nat) : State :=
  { s with fw := { s.fw with stage := none, streams := [], lastStatus := status } }.finish id status d0 d1 d2

/-- A stage whose manifest has passed: the records say that the free slot is being written, the image stands in reserved HBM, is
forwarded and programmed (R552, R554). -/
def State.stageImage (s : State) (j : FwJob) (l : List Byte) : State :=
  let one := s.fw.free
  let s := { s with fw := { (s.fw.modSlot one fun _ => slotWith 1 l).commit with stage := some j, hbmCopy := l } }
  (s.forward l).program one 0 l

/-- FW_STAGE once check 6 has passed; an error met in the image leaves the slot invalid (R552). -/
def State.stageBegin (s : State) (id a n : Nat) : State :=
  match s.hbmRead a n with
  | (l, s, some x) => { s with fw := (s.fw.modSlot s.fw.free fun _ => slotWith 4 l).commit }.stageEnd id stUncorr x 0 0
  | (l, s, none) => s.stageImage { cmd := some id } l

/-- Checks 1 to 6 (R551); last_status takes every result (R568). -/
def State.stageCheck (s : State) (id : Nat) (d : Started) : State :=
  let a := d.le 8 8
  let n := d.le 0x10 8
  if s.alarmed then s.stageEnd id stAlarmed 0 0 0
  else if !s.fw.idle then { s with fw := { s.fw with lastStatus := stFwBusy } }.finish id stFwBusy 0 0 0
  else if a % 64 ≠ 0 || !userHbm a (max n 0xC00) then s.stageEnd id stFwHdr 0 0 0
  else if s.hbmAsleep a (max n 0xC00) then s.noteAsleep.stageEnd id stHalfAsleep 0 0 0
  else
    match s.hbmRead a 0xC00 with
    | (_, s, some x) => s.stageEnd id stUncorr x 0 0
    | (m, s, none) =>
      if n ≠ leAt m 0x10 8 then s.stageEnd id stFwHdr 0x10 0 0
      else
        match s.manifestRefusal m with
        | (some r, s) => s.stageEnd id r.1 r.2 0 0
        | (none, s) => s.stageBegin id a n

/-- Check 7, on what the flash gives back: the slot is valid or invalid, and the stage's status. -/
def State.stageVerify (s : State) (readBackOk : Bool) : Nat × State :=
  let f := s.fw
  let ok := readBackOk && partsVerify (f.slot f.free).image
  (if ok then stOK else stFwSig, { s with fw := (f.modSlot f.free fun k => { k with state := if ok then 2 else 4 }).commit })

/-- The end of a FW_STAGE, with what the next devices have answered (R553). -/
def State.stageFinish (s : State) (id : Nat) (readBackOk : Bool) : State :=
  let (st, s) := s.stageVerify readBackOk
  s.stageEnd id st 0 (popCount 4 s.fw.accepted.toNat) s.fw.refused.toNat

/-- FW_STAGE: the first time checks 1 to 6 and the start of the stage; then the answers of the next devices, where streams
wait for one; then its end. -/
def execFwStage (id : Nat) (readBackOk : Bool) (refusals : BitVec 4) (s : State) : Host.Outcome State Fault Refusal :=
  .next (s.withCmd id 0x20 fun d =>
    if s.fw.stage = some { cmd := some id } then
      (if s.fw.streams.isEmpty then s.stageFinish id readBackOk else { s with fw := s.fw.answered refusals })
    else (s.stageCheck id d).authDue)

/-- What a device answers to an image forwarded to it (R555). -/
def State.forwardAnswer (s : State) (image : List Byte) : Nat × State :=
  if s.alarmed then (stAlarmed, s)
  else if !s.fw.acceptChain || !s.fw.idle then (stFwBusy, s)
  else if image.length ≠ leAt image 0x10 8 then (stFwHdr, s)
  else
    let (r, s) := s.manifestRefusal (fitTo 0xC00 image)
    ((r.map (·.1)).getD stOK, s)

/-- The end of a forwarded stage (R555). -/
def State.forwardFinish (s : State) (readBackOk : Bool) : State :=
  let (st, s) := s.stageVerify readBackOk
  { s with fw := { s.fw with stage := none, streams := [], lastStatus := st } }

/-- FW_FORWARD_RECEIVE: an image forwarded over link n is checked, answered, forwarded further and programmed; while it is being
staged, the flash gives it back and the stage ends. -/
def execFwForwardReceive (n : Nat) (image : List Byte) (readBackOk : Bool) (s : State) :
    Host.Outcome State Fault Refusal :=
  if !(s.linkTrained n && s.chiefRuns) then .next s
  else if s.fw.stage = some { cmd := none } && (s.fw.slot s.fw.free).image == image then .next (s.forwardFinish readBackOk)
  else
    let (r, s) := s.forwardAnswer image
    let s := s.emit (.fwAnswer n r)
    if r ≠ stOK then .next { s with fw := { s.fw with lastStatus := r } }.authDue
    else .next (s.stageImage { cmd := none } image)

/-! ## Activation (R557-R560) -/

/-- Whether an image can take over the settings of a format: its own need nothing. -/
def migrates (image : List Byte) (format : Nat) : Bool :=
  format == leAt image 0xC 2 || (decide (leAt image 0xE 2 ≤ format) && decide (format ≤ leAt image 0xC 2))

/-- The settings in force. -/
def State.settingsNow (s : State) (format : Nat) : Settings :=
  { format := format, policy := s.alm.policy, tLow := s.alm.tLow, tHigh := s.alm.tHigh, authLimit := s.alm.authLimit,
    dbgLimit := s.alm.dbgLimit, acceptChain := s.fw.acceptChain, defaulted := false }

/-- Step 3: the settings in the format of the free slot's image as a second copy, defaulted where the image cannot migrate them;
the old copy is kept, and the settings in force stay (R557, R564). -/
def State.migrate (s : State) : State :=
  let k := s.fw.slot s.fw.free
  let x := if migrates k.image s.activeFormat then s.settingsNow k.format
    else { Settings.default with format := k.format, defaulted := true }
  { s with fw := { s.fw with settings := s.fw.settings.filter (fun (y : Settings) => y.format != k.format) ++ [x] } }

/-- Step 1: why an activation does not begin. -/
def State.activateRefusal (s : State) : Option Nat :=
  if s.alarmed then some stAlarmed
  else if !s.fw.idle || !s.clauses.all fun x => s.quiescent x.id then some stFwBusy
  else if (s.fw.slot s.fw.free).state ≠ 2 then some stFwHdr
  else none

/-- Steps 5 and 6 of an activation whose parts have loaded: the new image takes charge (R557, R559). -/
def State.takeOver (s : State) : State :=
  let k := s.fw.slot s.fw.free
  let s := { s with fw := ((s.fw.activate s.fw.free).loadParts (s.halfUp true) k.image).commit }
  match s.fw.settings.find? fun (x : Settings) => x.format == k.format with
  | some x => (s.takeSettings x).loadHealth
  | none => s.loadHealth

/-- Steps 2 to 7; a load that fails leaves the previous image in charge (R558). -/
def State.activateNow (s : State) (id : Nat) (flashOk loadOk : Bool) : State :=
  let one := s.fw.free
  let image := (s.fw.slot one).image
  let s := { s with fw := { s.fw with hbmCopy := image } }
  if !(flashOk && partsVerify image) then
    { s with fw := (s.fw.modSlot one fun k => { k with state := 4 }).commit }.finish id stFwSig 0 0 0
  else if !loadOk then s.migrate.finish id stFwSig 0 0 0
  else s.migrate.takeOver.finish id stOK 0 0 0

/-- FW_ACTIVATE with param0[0] = 0. -/
def execFwActivate (id : Nat) (flashOk loadOk : Bool) (s : State) : Host.Outcome State Fault Refusal :=
  .next (s.withCmd id 0x21 fun d =>
    if d.param0 % 2 = 1 then s
    else
      match s.activateRefusal with
      | some r => s.finish id r 0 0 0
      | none => s.activateNow id flashOk loadOk)

/-- FW_ACTIVATE with param0[0] = 1. -/
def execFwActivateAtNextStart (id : Nat) (s : State) : Host.Outcome State Fault Refusal :=
  .next (s.withCmd id 0x21 fun d =>
    if d.param0 % 2 = 0 then s
    else
      match s.activateRefusal with
      | some r => s.finish id r 0 0 0
      | none =>
        let s := s.migrate
        { s with fw := { s.fw with pend := true }.commit }.finish id stOK 0 0 0)

/-! ## Confirmation (R562) -/

/-- A confirmed image. -/
def Fw.confirm (f : Fw) : Fw :=
  let k := f.slot f.activeSlot
  let g := f.modSlot f.free fun x => if f.state = 2 && x.state = 5 then FwSlot.empty else x
  { g with state := 0, attempts := 0, floor := if f.floor < k.rollback then k.rollback else f.floor
           settings := f.settings.filter fun (x : Settings) => x.format == k.format }.commit

/-- FW_CONFIRM. -/
def execFwConfirm (id : Nat) (s : State) : Host.Outcome State Fault Refusal :=
  .next (s.withCmd id 0x22 fun _ =>
    if s.fw.state = 1 || s.fw.state = 2 then { s with fw := s.fw.confirm }.finish id stOK 0 0 0 else s.finish id stOK 0 0 0)

/-! ## Recovery (R565-R567) -/

/-- Whether the recovery mode runs. -/
def State.recovering (s : State) : Bool := s.up && s.dev.recovery

/-- The slot that recovery writes: slot 0 unless it is bootable when the image's first block comes (R567). -/
def Fw.recSlot (f : Fw) : Bool := f.recTarget.getD (f.bootable f.slotOk false)

/-- A step of the recovery completed. -/
def Fw.recEnd (status : Nat) (f : Fw) : Fw := { f with recBusy := false, recDone := true, recStatus := status }

/-- The recovery without an image: the next block must be the first of one. -/
def Fw.recClear (f : Fw) : Fw := { f with recNext := 0, recImage := [], recTarget := none }

/-- FW_RECOV_CTL.go: the buffer's bytes go to the slot, in order; the manifest is checked once it has come. -/
def State.recovGo (s : State) : State :=
  let f := s.fw
  let n := min f.recCount.toNat 2048
  if !s.recovering || f.recBusy then s
  else if n = 0 then { s with fw := f.recEnd stOK }
  else if f.recOff.toNat ≠ f.recNext || 0x8000000 < f.recNext + n then { s with fw := f.recEnd stFwHdr }
  else
    let image := f.recImage ++ f.recBuf.read 0 n
    let one := f.recSlot
    let s := ({ s with fw :=
      { (f.modSlot one fun _ => slotWith 1 image).commit with
        recNext := f.recNext + n, recImage := image, recTarget := some one } }).program one f.recNext (f.recBuf.read 0 n)
    if f.recNext < 0xC00 && 0xC00 ≤ f.recNext + n then
      match s.manifestRefusal (image.take 0xC00) with
      | (some r, s) => { s with fw := (s.fw.recEnd r.1).recClear }
      | (none, s) => { s with fw := s.fw.recEnd stOK }
    else { s with fw := s.fw.recEnd stOK }

/-- FW_RECOV_GO. -/
def execFwRecovGo (s : State) : Host.Outcome State Fault Refusal := .next s.recovGo.authDue

/-- FW_RECOV_CTL.finish written: the step begins. -/
def State.recovFinish (s : State) : State :=
  if s.recovering then { s with fw := { s.fw with recBusy := true } } else s

/-- Whether a slot was found to read back, with one slot's finding changed. -/
def slotFound (one ok : Bool) (p : Bool × Bool) : Bool × Bool := if one then (p.1, ok) else (ok, p.2)

/-- FW_RECOV_FINISH: check 7 on the recovered image; on a pass its slot is active in state 1. -/
def execFwRecovFinish (readBackOk : Bool) (s : State) : Host.Outcome State Fault Refusal :=
  if !s.recovering then .next s
  else
    let f := s.fw
    let one := f.recSlot
    if f.recNext < 0xC00 then .next { s with fw := f.recEnd stFwHdr }
    else if readBackOk && f.recNext == leAt f.recImage 0x10 8 && partsVerify f.recImage then
      let g := f.modSlot one fun _ => slotWith 2 f.recImage
      .next { s with fw := { (((g.activate one).commit).recEnd stOK).recClear with slotOk := slotFound one true f.slotOk } }
    else .next { s with fw := (((f.modSlot one fun k => { k with state := 4 }).commit).recEnd stFwSig).recClear }

end Sys2Proof.Machine
end

