-- ==== Sys2Proof/Machine/Links.lean ====
section
/-! DEFINITION. Messages in transit; links that train, go down, hold, wake their peers and are switched off (R352, R370-R372,
R376, R379, R384-R386). -/
namespace Sys2Proof.Machine

/-- What a device that cannot pass a request on answers in its target's place (R379). -/
def unreachableReply (m : Msg) : Msg :=
  { m with resp := true, dst := m.src, dstNode := m.srcNode, src := m.dst, srcNode := m.dstNode, body := .refused,
           buf := none }

/-- A message that passes through: queued on the link its route takes (R374-R376); a request that has none is answered as
unreachable, any other such message goes nowhere. -/
def State.passOn (s : State) (n : Nat) (m : Msg) : State :=
  match s.sendMsg (linkEast n) false { m with buf := none } with
  | some s => s
  | none => if asksAccess m.body then (s.sendMsg (linkEast n) false (unreachableReply m)).getD s else s

/-- LINK_TRANSIT: the oldest message in transit that arrived on link n. -/
def execLinkTransit (n : Nat) (s : State) : Host.Outcome State Fault Refusal :=
  match (s.link n).transit with
  | m :: r =>
    if s.halfUp (linkEast n) then
      .next ((s.modLink n fun k => { k with transit := r }.drained m.buf).passOn n m)
    else .next s
  | [] => .next s

/-- Whether the transmitters of link n may be on: its half runs and its role is not 0 (R370). -/
def State.linkEnabled (s : State) (n : Nat) : Bool := s.halfUp (linkEast n) && !s.linkUnused n

/-- LINK_SIGNAL_DETECT: a link that is off begins to train; any wake pattern ends. -/
def execLinkSignalDetect (n : Nat) (s : State) : Host.Outcome State Fault Refusal :=
  if !s.linkEnabled n || (s.link n).trained then .next s
  else
    .next (s.modLink n fun k =>
      { k with wake := false, protectNow := k.protect, state := if k.state == .off then .training else k.state })

/-- A link whose lanes have all trained: it opens, or goes on holding until it is keyed. -/
def Link.opens (k : Link) : Link :=
  { k with
    trained := true, laneBad := 0, wake := false, state := if k.state == .training then .opened else k.state
    credits := if k.credits.isEmpty then fullCredit else k.credits
    owed := if k.owed.isEmpty then List.replicate 9 0 else k.owed }

/-- LINK_TRAINING_COMPLETE: every lane has trained, and the hello is sent; or some have not, and the link stays down
(R352). -/
def execLinkTrainingComplete (n : Nat) (laneBad : BitVec 8) (s : State) : Host.Outcome State Fault Refusal :=
  let k := s.link n
  if !s.linkEnabled n || k.trained || k.state == .off then .next s
  else if laneBad ≠ 0 then .next (s.modLink n fun k => { k with laneBad := laneBad })
  else
    let s := s.modLink n Link.opens
    .next (s.emit (.linkHello n (s.helloOf n)))

/-- A link that is not off goes down and trains anew (R372). -/
def State.retrain (s : State) (n : Nat) : State :=
  if s.halfUp (linkEast n) && (s.link n).state != .off then s.modLink n Link.goesDown else s

/-- LINK_DOWN: signal is lost, or an uncorrectable codeword ends a training (R372). -/
def execLinkDown (n : Nat) (s : State) : Host.Outcome State Fault Refusal := .next (s.retrain n)

/-- LINK_HOLD_EXPIRE: the link has failed, and the link-failure interrupt is raised (R372, R403). -/
def execLinkHoldExpire (n : Nat) (s : State) : Host.Outcome State Fault Refusal :=
  if s.halfUp (linkEast n) && (s.link n).state == .holding then
    .next ((s.modLink n fun k => { k with state := .failed }).raise irqLinkFail)
  else .next s

/-- LINK_SWITCH_OFF (R371). -/
def execLinkSwitchOff (n : Nat) (s : State) : Host.Outcome State Fault Refusal :=
  if s.halfUp (linkEast n) && (s.link n).stopping then .next (s.modLink n Link.switchOff) else .next s

/-- One period of the wake pattern for a device: a µs for each bit, then 8 µs of idle, after which it repeats (R384). -/
def wakePeriod (d : BitVec 16) : List Bool := (tab 32 fun i => (wakeWord d).getLsbD (31 - i)) ++ List.replicate 8 false

/-- GLK_CMD.wake: the pattern goes out, addressed to the last peer, on a link that has not trained; it repeats while `wake`
stands (R386). -/
def State.wakePeer (s : State) (n : Nat) : State :=
  if s.linkEnabled n && !(s.link n).trained then
    (s.emit (.wakePattern n (wakePeriod (s.link n).peerId))).modLink n fun k => { k with wake := true }
  else s

/-- GLK_CMD written: its bits act in ascending order. -/
def State.writeGlkCmd (s : State) (n v : Nat) : State :=
  let s := if bitAt v 0 then s.retrain n else s
  let s := if bitAt v 1 then s.rekey n else s
  if bitAt v 2 then s.wakePeer n else s

/-- GLK_CMD_RETRAIN. -/
def execGlkCmdRetrain (n : Nat) (s : State) : Host.Outcome State Fault Refusal :=
  if s.hostUp then .next (s.writeGlkCmd n 1) else .next s

/-- GLK_CMD_REKEY. -/
def execGlkCmdRekey (n : Nat) (s : State) : Host.Outcome State Fault Refusal :=
  if s.hostUp then .next (s.writeGlkCmd n 2) else .next s

/-- GLK_CMD_WAKE. -/
def execGlkCmdWake (n : Nat) (s : State) : Host.Outcome State Fault Refusal :=
  if s.hostUp then .next (s.writeGlkCmd n 4) else .next s

/-- WAKE_PATTERN_TIMEOUT. -/
def execWakePatternTimeout (n : Nat) (s : State) : Host.Outcome State Fault Refusal :=
  .next (s.modLink n fun k => { k with wake := false })

end Sys2Proof.Machine
end

