-- ==== Sys2Proof/Machine/Mailbox.lean ====
section
/-! DEFINITION. The steward mailboxes: readback of large objects (R522-R524, R527, R528). -/
namespace Sys2Proof.Machine

/-- A request's fields (DBG_MB_REQ). -/
structure MbReq where
  object : Nat
  flags : Nat
  tile : Nat
  offset : Nat
  len : Nat
  buffer : Nat
  reservedOk : Bool
  deriving DecidableEq, Repr

/-- The fields of 64 request bytes. -/
def mbReq (b : List Byte) : MbReq :=
  { object := byteAt b 0, flags := byteAt b 1, tile := leAt b 2 2, offset := leAt b 8 8, len := leAt b 0x10 8,
    buffer := leAt b 0x18 8, reservedOk := decide (byteAt b 1 < 8) && allZero (slice b 4 4) && allZero (slice b 0x20 32) }

/-- Coupling bank bytes with its trims (object 2 or 3). -/
def State.bankObject (s : State) (t : Nat) (b : Bank) : List Byte :=
  b.codes.read 0 262144 ++ encNibbles b.scale ++ (List.range 512).flatMap fun i => leBytes 4 (s.trimWord t i).toNat

/-- Osier state (object 4). -/
def osierObject (o : Osier) : List Byte :=
  leBytes 64 (ofBits 512 fun i => o.st.getD i false) ++
    ((tab 512 fun i => leBytes 2 (unsigned 16 (o.bias.getD i 0))) ++ (tab 512 fun i => leBytes 2 (unsigned 16 (o.ext.getD i 0))) ++
      (tab 512 fun i => leBytes 4 (unsigned 32 (o.bsum.getD i 0 / 2))) ++
      tab 512 fun i => leBytes 4 (unsigned 32 (o.asum.getD i 0))).flatten ++
    leBytes 8 (ofBits 64 fun i => o.anchorSt.getD i false)

/-- The anchor table (object 5). -/
def anchorObject (o : Osier) : List Byte :=
  let w := o.anchorWidth / 8
  if o.hasAnchors then (o.anchorBias ++ o.anchorCoef).flatMap fun v => leBytes w (unsigned (8 * w) v) else []

/-- A link's lane state, 0 down, 1 training, 2 trained. -/
def laneState (k : Link) (lane : Nat) : Nat :=
  if k.trained then 2 else if k.state == .off || k.laneBad.getLsbD lane then 0 else 1

/-- Eight lane records (objects 9 and 10): lane, state, rate in 0.1 Gb/s (R349, R396), and figures the manual leaves open. -/
def State.laneRecords (s : State) (group first : Nat) (state rate : Nat → Nat) : List Byte :=
  (List.range 8).flatMap fun k =>
    leBytes 1 (first + k) ++ leBytes 1 (state k) ++ leBytes 2 (rate k) ++
      fitTo 44 (Config.laneRecord s.free group (first + k)) ++ zeros 16

/-- Gb/s per lane of a PCIe generation, in units of 0.1 (R396). -/
def pcieRate (gen : Nat) : Nat := [0, 25, 50, 80, 160, 320, 640, 1280].getD gen 0

/-- The bytes of an object of tile t (R522). -/
def State.objectBytes (s : State) (r : MbReq) (t : Nat) : List Byte :=
  let T := s.tile t
  match r.object with
  | 1 => T.sram.read r.offset r.len
  | 2 => s.bankObject t T.os.bank0
  | 3 => s.bankObject t T.os.bank1
  | 4 => osierObject T.os
  | 5 => anchorObject T.os
  | 6 => ((s.phraseAt t r.offset).map (phraseBytes r.offset)).getD []
  | 7 => (threadEntries T.live).flatMap fun e => leBytes 4 e.1 ++ zeros 4 ++ leBytes 8 e.2
  | 8 => s.hbmBytes r.offset r.len
  | 9 =>
    let k := s.link (r.tile % 32)
    s.laneRecords (r.tile % 32) 0 (laneState k) fun _ => if k.trained then 2125 else 0
  | _ => s.laneRecords (32 + r.tile) (8 * r.tile) (fun k => if 8 * r.tile + k < s.dev.pciWidth then 2 else 0) fun k =>
      if 8 * r.tile + k < s.dev.pciWidth then pcieRate s.dev.pciGen else 0

/-- How many bytes the data of a request are. -/
def State.objectLen (s : State) (r : MbReq) (t : Nat) : Nat :=
  match r.object with
  | 1 => r.len
  | 2 => 264224
  | 3 => 264224
  | 4 => 6216
  | 5 => (anchorObject (s.tile t).os).length
  | 6 => 9216
  | 7 => 16 * (threadEntries (s.tile t).live).length
  | 8 => r.len
  | _ => 512

/-- Whether what a request names exists (R522): its tile, range, phrase slot or lane group. -/
def State.namesObject (s : State) (r : MbReq) (t : Option Nat) : Bool :=
  match r.object with
  | 1 => t.isSome && r.offset % 8 == 0 && r.len % 8 == 0 && decide (r.offset + r.len ≤ sramSize)
  | 6 => t.isSome && decide (r.offset < 64) && (s.phraseAt (t.getD 0) r.offset).isSome
  | 8 => r.offset % 64 == 0 && r.len % 64 == 0 && userHbm r.offset r.len
  | 9 => true
  | 10 => decide (r.tile ≤ 1)
  | n => t.isSome && decide (2 ≤ n) && decide (n ≤ 7)

/-- The tile a request names: objects 9 and 10 name none. -/
def State.reqTile (s : State) (r : MbReq) : Option Nat := if r.object ≤ 7 then s.logicalOf r.tile else none

/-- Whether a request completes with CMD_ARG. -/
def State.reqBad (s : State) (r : MbReq) : Bool :=
  let n := s.objectLen r ((s.reqTile r).getD 0)
  !r.reservedOk || !s.namesObject r (s.reqTile r) || (!bitAt r.flags 1 && decide (0x80000 < n)) ||
    (bitAt r.flags 2 && r.object != 1 && r.object != 8) ||
    (bitAt r.flags 1 && (r.buffer % 64 != 0 || !userHbm r.buffer n))

/-- Whether an object, or the buffer, lies in a sleeping half. -/
def State.reqAsleep (s : State) (r : MbReq) : Bool :=
  let n := s.objectLen r ((s.reqTile r).getD 0)
  (match r.object with
   | 8 => decide (0 < r.len) && s.hbmAsleep r.offset r.len
   | 9 => s.halfClosed (linkEast (r.tile % 32))
   | 10 => false
   | _ => s.halfClosed (s.tileEast ((s.reqTile r).getD 0))) ||
    (bitAt r.flags 1 && decide (0 < n) && s.hbmAsleep r.buffer n)

/-- A request completed; what it held it releases, and no other hold (R523). -/
def State.mbEnd (s : State) (east : Bool) (status : Nat) : State :=
  s.modMbox east fun m => { m with busy := false, done := true, status := status, holds := [] }

/-- UNCORR where a transfer met a struck line. -/
def mbStatus (struck : Option Nat) : Nat := if struck.isSome then stUncorr else stOK

/-- A read request served: the object goes to the window or the buffer; the shell counts 64-bit words (R540). -/
def State.mbRead (s : State) (east : Bool) (r : MbReq) : State :=
  let t := (s.reqTile r).getD 0
  let l := s.objectBytes r t
  let struck := if r.object = 8 then (s.struckLines r.offset r.len) else []
  let s := struck.foldl State.noteUncorr s
  let s := if r.object ≤ 7 then s.tally t 0x55 ((l.length + 7) / 8) else s
  let s := { s with free := s.free + 1 }
  if bitAt r.flags 1 then
    let (s, x) := s.hbmWrite r.buffer l
    s.mbEnd east (mbStatus (struck.head?.or x))
  else (s.modMbox east fun m => { m with window := m.window.write 0 l }).mbEnd east (mbStatus struck.head?)

/-- A write request served: the object takes its bytes from the window or the buffer. -/
def State.mbWrite (s : State) (east : Bool) (r : MbReq) : State :=
  let (l, s, x) := if bitAt r.flags 1 then s.hbmRead r.buffer r.len else ((s.mbox east).window.read 0 r.len, s, none)
  if r.object = 1 then
    (s.modTile ((s.reqTile r).getD 0) fun T => { T with sram := T.sram.write r.offset l }).mbEnd east (mbStatus x)
  else
    let (s, y) := s.hbmWrite r.offset l
    s.mbEnd east (mbStatus (x.or y))

/-- Whether a read of a bank waits for an OBANK into it (R524). -/
def State.mbWaits (s : State) (r : MbReq) : Bool :=
  let o := (s.tile ((s.reqTile r).getD 0)).os
  (r.object == 2 || r.object == 3) && o.loading.isSome && (o.bank == (r.object == 2))

/-- The clause that a request holds while it reads: that of its object's tile, where flags[0] asks for it (R523). -/
def State.mbClause (s : State) (r : MbReq) : Option Nat :=
  if bitAt r.flags 0 && !bitAt r.flags 2 then (s.reqTile r).bind fun t => (s.tile t).clause else none

/-- A request that has passed its checks, served under its hold: the clause's tiles issue nothing, and it waits until what
they have issued completes (R34, R523). -/
def State.mbUnder (s : State) (east : Bool) (r : MbReq) : State :=
  match s.mbClause r with
  | none => s.mbRead east r
  | some c =>
    let s := s.modMbox east fun m => { m with holds := s.members c }
    if s.settled c then s.mbRead east r else s

/-- The request in progress served, unless it must wait: for its steward, for an OBANK, or for the clause it holds. -/
def State.mbServe (s : State) (east : Bool) : State :=
  let m := s.mbox east
  let r := mbReq m.req
  if !m.busy || !s.stewardRuns east then s
  else if m.viaTap && s.sec.debug ≠ 2 && (r.object = 1 || r.object = 8) then s.mbEnd east stLocked
  else if s.reqBad r then s.mbEnd east stCmdArg
  else if s.reqAsleep r then s.mbEnd east stHalfAsleep
  else if bitAt r.flags 2 then s.mbWrite east r
  else if s.mbWaits r then s
  else s.mbUnder east r

/-- DBG_MB_CTL.go: ignored while busy. -/
def State.mbGo (s : State) (east viaTap : Bool) : State :=
  if (s.mbox east).busy then s else (s.modMbox east fun m => { m with busy := true, viaTap := viaTap }).mbServe east

/-- MAILBOX_REQUEST: a request starts, or one that had to wait is served; the TAP reaches it at debug level 1 or more. -/
def execMailboxRequest (h : Half) (viaTap : Bool) (s : State) : Host.Outcome State Fault Refusal :=
  let e := isEast h
  if !(s.hostUp && s.halfUp e) then .next s
  else if (s.mbox e).busy then .next (s.mbServe e)
  else if viaTap && s.sec.debug = 0 then .next s.debugFail
  else .next (s.mbGo e viaTap)

end Sys2Proof.Machine
end

