-- ==== Sys2Proof/Machine/Power.lean ====
section
/-! DEFINITION. Half power, entry into vigil, SANITIZE (R471-R475, R491-R498). -/
namespace Sys2Proof.Machine

/-! ## Half power (R493-R496) -/

/-- Whether the installed weave places a tile, flow end, tree node or window in the East half. -/
def State.weaveInEast (s : State) : Bool :=
  match s.weave.installed with
  | none => false
  | some w =>
    let ok := nodePlaced true s.nTiles w.links
    let trees := w.mcast.map (·.nodes) ++ w.folds.map (·.nodes)
    !(w.clauses.all (fun r => r.members.all ok) && w.routes.all (fun r => ok r.src && ok r.dst) &&
      trees.all fun l => l.all fun e => ok e.node)

/-- The East items of a list of pairs of halves changed. -/
def eastFrom {α : Type} (n : Nat) (f : α → α) (l : List α) : List α := l.mapIdx fun i x => if n ≤ i then f x else x

/-- Whether a sensor belongs to the East half. -/
def State.sensorAsleep (s : State) (x : Sensor) : Bool :=
  match x with
  | .tile t => s.tileEast t
  | .vigil => false

/-- The East half powered down (R494); transfers that cross the seam are decided when they reach it (R324). -/
def State.eastOff (s : State) : State :=
  let s := ((s.modTks true Tks.disable).emit (.pmbus 1 0)).blindSensors (s.sensorAsleep ·)
  { s with
    dev := { s.dev with eastAwake := false, closing := true }
    links := eastFrom 16 Link.switchOff s.links
    hbmStacks := eastFrom 6 (fun (k : Stack) => { k with selfRefresh := true, up := false }) s.hbmStacks
    hopE := s.hopE.lose
    mboxE := { s.mboxE with busy := false, hold := false, held := false, holds := [] } }.entropyLost

/-- HALF_POWER off in its turn. -/
def State.halfOff (s : State) (id : Nat) (d : Started) : State :=
  if !bitAt d.param0 0 then s.cmdArg id 4
  else if !s.dev.eastAwake then s.finish id stOK 0 0 0
  else if s.weaveInEast then s.finish id stWeaveRoute 0 0 0
  else s.eastOff.finish id stOK 0 0 0

/-- HALF_POWER_OFF: HALF_POWER with param0[8] = 0. -/
def execHalfPowerOff (id : Nat) (s : State) : Host.Outcome State Fault Refusal :=
  .next (s.withCmd id 0x41 fun d => if !bitAt d.param0 8 && s.serialTurn id then s.halfOff id d else s)

/-- The East half awake again: its items at their reset values (R496, R508). -/
def State.eastOn (s : State) : State :=
  let half := s.nTiles / 2
  let s := { s with
    dev := { s.dev with eastAwake := true, closing := false }
    tiles := eastFrom half (fun _ => Tile.reset) s.tiles
    hopE := Hopper.fresh s.hopE.aptCutoff s.hopE.rctCutoff
    tksE := Tks.reset
    fw := { s.fw with tableE := imagePart 6 s.activeSlot.image
                      parts := { s.fw.parts with microE := imagePart 2 s.activeSlot.image } }
    hbmStacks := eastFrom 6 (fun (k : Stack) => { k with selfRefresh := false, up := !k.offline }) s.hbmStacks
    links := eastFrom 16 (fun _ => Link.reset) s.links
    mboxE := Mbox.reset
    pwr := { s.pwr with railE := { Pwr.reset.railE with lastOk := s.timer } }
    tly := { s.tly with rim := s.tly.rim.zipIdx.map fun (x : (Nat × Nat) × Nat) => if rimEast x.2 then (0, 0) else x.1 } }
  (s.dropNonce.setpoint true (s.vset true))

/-- HALF_POWER on in its turn. -/
def State.halfOn (s : State) (id : Nat) (d : Started) : State :=
  if !bitAt d.param0 0 then s.cmdArg id 4
  else if s.dev.eastAwake then s.finish id stOK 0 0 0
  else s.eastOn.finish id stOK 0 0 0

/-- HALF_POWER_ON: HALF_POWER with param0[8] = 1. -/
def execHalfPowerOn (id : Nat) (s : State) : Host.Outcome State Fault Refusal :=
  .next (s.withCmd id 0x41 fun d => if bitAt d.param0 8 && s.serialTurn id then s.halfOn id d else s)

/-! ## Vigil (R498) -/

/-- Whether a run is in progress, or a command that starts one has not completed. -/
def State.runsOut (s : State) : Bool :=
  s.clauses.any (fun x => x.run.isSome) || s.started.any fun c => [0x03, 0x06, 0x31].contains c.opcode && c.fin.isNone

/-- Vigil entered (steps 2 to 4): recording stops, links and keys go, the rails are switched off. -/
def State.enterVigil (s : State) : State :=
  let s := s.recordStop.eraseSession
  let keep := s.pwr.retain
  { s.coreStops .off with
    links := s.links.map Link.switchOff
    hbmStacks := s.hbmStacks.map fun (k : Stack) => { k with up := false, selfRefresh := keep }
    pwr := { s.pwr with core := .off, vigil := true, retained := keep, coreEn := false, hbmEn := keep, pendingWake := 0 } }

/-- Step 1, where the completion ring has a free slot, and the steps after it. -/
def State.vigilNow (s : State) (id : Nat) : State :=
  match execCompletionRecordWrite id (s.finish id stOK 0 0 0) with
  | .next s' => if (s'.cmd id).isNone then s'.enterVigil else s
  | _ => s

/-- POWER_STATE. -/
def execPowerState (id : Nat) (s : State) : Host.Outcome State Fault Refusal :=
  .next (s.withCmd id 0x40 fun d =>
    let t := d.param0 % 4
    if t = 2 then s.cmdArg id 4
    else if t ≠ 3 then s.finish id stOK 0 0 0
    else if s.runsOut then s.finish id stWeaveBusy 0 0 0
    else if s.started.length ≠ 1 then s
    else s.vigilNow id)

/-! ## SANITIZE (R471-R475) -/

/-- Whether SANITIZE has nothing left to wait for: every command started before it has completed but the runs. -/
def State.sanitizeTurn (s : State) (id : Nat) : Bool :=
  !s.started.any fun c => decide (c.id < id) && !(c.fin.isSome || [0x03, 0x06, 0x31].contains c.opcode)

/-- Steps 1 and 2 of a SANITIZE: every run ends that was fetched before it, recording stops, the samplers are disabled after
their requests in progress (R306). -/
def State.sanitizeStop (s : State) (id : Nat) : State :=
  let s := s.disableTks.resetClauses stAborted
  let ids := (s.started.filter fun c => decide (c.id < id) && [0x03, 0x06, 0x31].contains c.opcode).map (·.id)
  (ids.foldl (fun s i => s.finish i stAborted 0 0 0) s).recordStop

/-- A cell that goes on without what it had pending (R276). -/
def NoiseCell.empty (k : NoiseCell) : NoiseCell := { k with pend := none, st := if k.st = .capture then .retest else k.st }

/-- A hopper emptied, its registers at their reset values (R276). -/
def Hopper.sanitize (h : Hopper) : Hopper :=
  { h.keep with units := [], cells := h.cells.map NoiseCell.empty }

/-- The memory with the bytes of stacks that are not offline made 0. -/
def State.scrub (s : State) : State :=
  let off := fun (a : Nat) => (s.stack (a / stackSize)).offline
  { s with hbm := s.hbm.filter fun c => off c.1
           bad := s.bad.filter fun l => off (64 * l)
           exact := s.exact.filter fun c => off c.addr }

/-- Steps 3 and 4: keys, memory, state and registers, outside the kept set of R472. -/
def State.sanitizeClear (s : State) : State :=
  let s := (s.eraseSession).scrub
  let d := s.defaults
  let s := { d with
    pwr := { (s.pwr.defaultSet.coreReset s.timer) with retain := false, wakePlait := true, vigilPeriod := 50 }
    dev := { Dev.reset with ready := s.dev.ready, pciGen := s.dev.pciGen, pciWidth := s.dev.pciWidth,
                            pciFlit := s.dev.pciFlit, bar2Base := s.dev.bar2Base, bar2Log2 := s.dev.bar2Log2,
                            unsupp := s.dev.unsupp, qTurn := s.dev.qTurn }
    queues := s.queues, started := s.started, hbm := s.hbm, bad := s.bad, exact := s.exact,
    hbmStacks := s.hbmStacks.map Stack.clearErr, tiles := s.tiles.map fun (T : Tile) => { Tile.reset with cal := T.cal.cfgReset }
    hopW := s.hopW.sanitize, hopE := s.hopE.sanitize, links := s.links.map Link.keepTraining, glkWake := GlkWake.reset
    alm := { s.alm with authRun := 0, dbgRun := 0 }
    sec := { s.sec.reboot with sessionId := 0, dbgFails := 0 } }
  s.settle.sendHellos

/-- Offline stacks. -/
def State.offStacks (s : State) : List Nat := (List.range 12).filter fun i => (s.stack i).offline

/-- The record's bytes 0x000 to 0x0BF (R475). -/
def State.sanitizeRecord (s : State) (status t0 : Nat) (prior : List Byte) : List Byte :=
  let off := s.offStacks
  [0x4E, 0x53, 0x4E, 0x31, 1, 0] ++ leBytes 2 (b2n (s.hasKey 0) + 2 * b2n (!off.isEmpty)) ++ leBytes 1 status ++ zeros 7 ++
    s.idKeyId ++ fitTo 16 Config.serial ++ leBytes 4 s.sec.sanitizeCount.toNat ++ leBytes 4 s.pwr.bootCount.toNat ++
    leBytes 8 t0 ++ leBytes 8 s.timer ++ leBytes 2 (ofBits 12 fun i => !off.contains i) ++ zeros 6 ++ fitTo 64 prior ++
    leBytes 4 (0x1E + b2n off.isEmpty) ++ zeros 28

/-- The record signed where the identity is present, else with its signature 0. -/
def State.signRecord (s : State) (b : List Byte) : List Byte × State :=
  if s.hasKey 0 then
    let (sig, s) := s.sign b
    (b ++ sig, s)
  else (b ++ zeros 1280, s)

/-- The latches cleared at the end: those of sources that are not present (R482). -/
def Alm.clearLatches (present : BitVec 6) (a : Alm) : Alm :=
  let l := a.latched &&& present
  { a with latched := l, worst := if l = 0 then 0 else a.worst }

/-- Steps 5 and 6: the record, then the completion. -/
def State.sanitizeEnd (s : State) (id a t0 : Nat) (prior : List Byte) : State :=
  let off := s.offStacks
  let status := if off.isEmpty then stOK else stUncorr
  let s := (s.checkEntry 0)
  let s := { s with sec := { s.sec with sanitizeCount := s.sec.sanitizeCount + 1 } }
  let (r, s) := s.signRecord (s.sanitizeRecord status t0 prior)
  let s := (s.hbmWrite a r).1
  let s := { s with sec := { s.sec with lastSanitize := shake256 32 r }, alm := s.alm.clearLatches s.almPresent }
  s.finish id status (stackSize * off.headD 0) 0 0

/-- SANITIZE (R471). -/
def execSanitize (id : Nat) (s : State) : Host.Outcome State Fault Refusal :=
  .next (s.withCmd id 0x07 fun d =>
    let a := d.le 8 8
    if !s.sanitizeTurn id then s
    else if s.halfClosed true then s.finish id stHalfAsleep 0 0 0
    else if a % 64 ≠ 0 || !userHbm a 1472 then s.cmdArg id 8
    else ((s.sanitizeStop id).sanitizeClear).sanitizeEnd id a s.timer s.weave.digest)

end Sys2Proof.Machine
end

