-- ==== Sys2Proof/Machine/Tallies.lean ====
section
/-! DEFINITION. The tally commands: settings, clearing, dumps (R536, R543-R546), and a tick of time. -/
namespace Sys2Proof.Machine

/-- TLY_CTL.clear: every tile and rim counter (R536). -/
def State.clearTallies (s : State) : State :=
  { s with tiles := s.tiles.map Tile.clearCounts
           tly := { s.tly with rim := List.replicate 100 (0, 0) } }

/-- Events whose count is time or traffic of the networks, which no command of the table shows (R540; log entry 36, DESIGN
CHOICE). -/
def timeEvents : List Nat :=
  [0x09, 0x11, 0x17, 0x22, 0x2C, 0x2F, 0x30, 0x31, 0x32, 0x33, 0x34, 0x35, 0x36, 0x37, 0x3A, 0x3C, 0x3E, 0x4C, 0x56]

/-- A tile's counters after a tick: free counts of the time events, and, while the tile has a live phrase or a queued item, free
counts of front-starved and back-starved slot ticks, each of which counts in 0x5F too (R538, R539); its calibrator's step
(R222). -/
def Tile.tick (cfg : TallyCfg) (now k : Nat) (T : Tile) : Tile :=
  let n (i : Nat) : Nat := (Config.free64 (k + i)).toNat
  let T := { T with cal := T.cal.tick now (Config.freeBit k) }
  let U := timeEvents.zipIdx.foldl (fun V e => V.tally cfg e.1 (n e.2)) T
  if T.live.isEmpty && T.wq.isEmpty then U
  else ((U.tally cfg 0x02 (n 30)).tally cfg 0x03 (n 31)).tally cfg 0x5F (n 30 + n 31)

/-- The rim counters after a tick: free counts of flits and of steps waited in the halves that are up (R541; log entry 37, DESIGN CHOICE). -/
def State.tickRim (s : State) (k : Nat) : List (Nat × Nat) :=
  s.tly.rim.zipIdx.map fun x =>
    if s.halfUp (rimEast x.2) then
      (satAdd 48 x.1.1 (Config.free64 (k + 2 * x.2)).toNat, satAdd 48 x.1.2 (Config.free64 (k + 2 * x.2 + 1)).toNat)
    else x.1

/-- One period of the 100 MHz reference: TLY_TIMER advances by 10 (R544), and what counts time or traffic grows by free counts, in
the tiles and the rim routers whose half is up (R540, R541; log entries 3, 36 and 37, DESIGN CHOICE); whether a dump is still
being written then is a free bit (R545; log entry 104). -/
def State.tick (s : State) : State :=
  let m := s.free + 32 * s.tiles.length
  { s with
    timer := s.timer + 10
    tiles := s.tiles.zipIdx.map fun x => if s.tileUp x.2 then x.1.tick s.tly.cfg (s.timer + 10) (s.free + 32 * x.2) else x.1
    tly := { s.tly with rim := s.tickRim m, dumping := s.tly.dumping && Config.freeBit m }
    free := m + 200 }

/-- TLY_CLEAR. -/
def execTlyClear (s : State) : Host.Outcome State Fault Refusal := if s.hostUp then .next s.clearTallies else .next s

/-- TLY_TCTL.clear of a tile. -/
def State.clearTile (s : State) (t : Nat) : State := s.modTile t Tile.clearCounts

/-- TILE_TALLY_CLEAR. -/
def execTileTallyClear (t : Nat) (s : State) : Host.Outcome State Fault Refusal :=
  if s.hostUp && s.tileUp t then .next (s.clearTile t) else .next s

/-- Counters per tile of the mode in force (R535). -/
def TallyCfg.count (c : TallyCfg) : Nat := if c.dedicated then 96 else 8

/-- A 48-bit counter as it is read: the count, bit 63 once it has saturated (R535). -/
def countWord (v : Nat) : Nat := v + 2 ^ 63 * b2n (v == 2 ^ 48 - 1)

/-- A tile's block in a dump: what a shell without power would send is open. -/
def State.tileBlock (s : State) (t : Nat) : List Byte :=
  let n := s.tly.cfg.count
  (List.range n).flatMap fun k =>
    leBytes 8 (if s.tileUp t then countWord ((s.tile t).cnt.getD k 0) else (Config.free64 (s.free + 96 * t + k)).toNat)

/-- A dump that holds what stands now, under a scheduled time (R546). -/
def State.dumpImage (s : State) (at_ : Nat) : List Byte :=
  leBytes 8 s.tly.seq ++ leBytes 8 at_ ++ leBytes 2 s.nTiles ++ leBytes 2 s.tly.cfg.count ++ zeros 44 ++
    (List.range s.nTiles).flatMap s.tileBlock ++ s.tly.rim.flatMap fun (x : Nat × Nat) => leBytes 8 x.1 ++ leBytes 8 x.2

/-- A dump lost to overlap or to a full ring (R545, R546). -/
def State.dropDump (s : State) : State :=
  { s with tly := { s.tly with dropped := satAdd 32 s.tly.dropped 1, ringDropped := s.tly.ringDropped + 1 } }.tallyHeader

/-- A dump written to the ring, or dropped where the ring has no room (R546). -/
def State.dumpTo (s : State) (r : Region) (at_ : Nat) : State :=
  let cap := r.len - 0x40
  let w := s.tly.ringWrite
  let n := s.dumpBytes
  let pad := if cap < w % cap + n then cap - w % cap else 0
  if cap < n || leNat (s.hbmBytes (r.base + 0x10) 8) + cap < w + pad + n then
    s.dropDump
  else
    let s' := s.ownWrite (r.base + 0x40 + (w + pad) % cap) (s.dumpImage at_)
    { s' with
      free := s.free + 96 * s.nTiles
      tly := { s.tly with
        dumping := true, ringWrite := w + pad + n, seq := s.tly.seq + 1, dumps := satAdd 32 s.tly.dumps 1 } }.tallyHeader

/-- A snapshot under a scheduled time, counted by each shell (R540, R545); with no dump region there is none, and one that falls
while a dump is being written is skipped and counted as dropped (log entry 104). -/
def State.snapshot (s : State) (at_ : Nat) : State :=
  match s.tallyRing with
  | none => s
  | some r =>
    if s.tly.dumping then s.dropDump
    else ((List.range s.nTiles).filter s.tileUp).foldl (fun s t => s.tally t 0x57 1) (s.dumpTo r at_)

/-- TLY_DUMP_NOW. -/
def execTlyDumpNow (s : State) : Host.Outcome State Fault Refusal :=
  if s.hostUp then .next (s.snapshot s.timer) else .next s

/-- Multiples of dump_period that TLY_TIMER has passed since the settings took effect (R545). -/
def State.dumpsDue (s : State) : Nat := (s.timer - s.tly.since) / (1000 * s.tly.cfg.period)

/-- TALLY_DUMP: TLY_TIMER has passed a multiple of dump_period, and the snapshot of the last one is taken (R545). -/
def execTallyDump (s : State) : Host.Outcome State Fault Refusal :=
  let n := s.dumpsDue
  if s.up && s.tly.cfg.period != 0 && decide (s.tly.taken < n) then
    .next ({ s with tly := { s.tly with taken := n } }.snapshot (s.tly.since + n * (1000 * s.tly.cfg.period)))
  else .next s

/-- The body offset of the first field of a TALLY body that R543 refuses. -/
def State.tallyBad (s : State) (b : List Byte) : Option Nat :=
  let region := leAt b 2 2
  let events := if byteAt b 0 = 0 then (List.range 8).map fun k => (8 + 2 * k, eventOk (leAt b (8 + 2 * k) 2))
    else [(8, allZero (slice b 8 16))]
  let l := [(0, decide (byteAt b 0 ≤ 1)), (1, byteAt b 1 == 0),
    (2, region == 0xFFFF || (s.regions.any fun r => r.kind == 4 && r.id == region))] ++ events ++
    [(24, allZero (slice b 24 8))]
  (l.find? fun x => !x.2).map (·.1)

/-- TALLY_CFG (R543). -/
def execTallyCfg (id : Nat) (s : State) : Host.Outcome State Fault Refusal :=
  .next (s.withCmd id 0x50 fun d =>
    let a := d.le 8 8
    if s.weave.locked then s.finish id stLocked 0 0 0
    else if !userHbm a 32 then s.cmdArg id 8
    else if s.hbmAsleep a 32 then s.noteAsleep.finish id stHalfAsleep 0 0 0
    else
      match s.hbmRead a 32 with
      | (_, s, some x) => s.finish id stUncorr x 0 0
      | (b, s, none) =>
        match s.tallyBad b with
        | some o => s.finish id stCmdArg o 0 0
        | none => (s.installTally (parseTally b)).finish id stOK 0 0 0)

end Sys2Proof.Machine
end

