-- ==== Sys2Proof/Machine/Tks.lean ====
section
/-! DEFINITION. The token samplers' commands (R295-R307). -/
namespace Sys2Proof.Machine

/-- TKS_REQUEST (R298, R300-R305). -/
def execTksRequest (h : Half) (s : State) : Host.Outcome State Fault Refusal :=
  if s.tksBusy (isEast h) then .next (s.tksRequest (isEast h)).authDue else .next s

/-! ## The tail word (R297-R299) -/

/-- An idle sampler reads the tail word. -/
def State.tksPoll (s : State) (east : Bool) : State :=
  let k := s.tks east
  if !k.enable || k.tailCount != k.head then s
  else if s.hbmAsleep k.lTail 4 then s.noteAsleep
  else
    let (l, s, _) := s.hbmRead k.lTail 4
    let v := BitVec.ofNat 32 (leNat l)
    if 2 ^ k.lSize < (v - k.head).toNat then s.modTks east fun k => { k.disable with overrun := true }
    else s.modTks east fun k => { k with tailCount := v, busy := v != k.head }

/-- TKS_TAIL_POLL. -/
def execTksTailPoll (h : Half) (s : State) : Host.Outcome State Fault Refusal :=
  if s.halfUp (isEast h) then .next (s.tksPoll (isEast h)) else .next s

/-- TKS_KICK: a write of 1 to PG_TKS_KICK. -/
def execTksKick (h : Half) (s : State) : Host.Outcome State Fault Refusal :=
  if s.halfUp (isEast h) then .next (s.tksPoll (isEast h)) else .next s

/-! ## Enabling (R296, R297, R306) -/

/-- Whether a sampler's settings pass R296. -/
def State.tksOk (s : State) (k : Tks) : Bool :=
  let c := k.clause.toNat
  (s.clauseRec c).isSome &&
    s.regions.any (fun r => r.kind == 0 && r.grants c && r.holds k.ring.toNat (64 * 2 ^ k.sizeLog2.toNat)) &&
    k.tail.toNat % 8 == 0 && s.atomRegion c k.tail.toNat 8 && !s.hbmAsleep k.tail.toNat 4

/-- A sampler whose settings pass, enabled: they are latched, and the head count is the tail read. -/
def State.tksStart (s : State) (east : Bool) : State :=
  let a := (s.tks east).tail.toNat
  let (l, s, _) := s.hbmRead a 4
  let v := BitVec.ofNat 32 (leNat l)
  s.modTks east fun k =>
    { k with enable := true, busy := false, head := v, tailCount := v, lClause := k.clause.toNat, lSize := k.sizeLog2.toNat,
             lRing := k.ring.toNat, lTail := a }

/-- PG_TKS_CFG written. -/
def State.writeTks (s : State) (east : Bool) (v : Nat) : State :=
  let was := (s.tks east).enable
  let s := s.modTks east fun k =>
    { k with clause := BitVec.ofNat 6 (bitsAt v 21 16), sizeLog2 := BitVec.ofNat 4 (bitsAt v 3 0) }
  if !bitAt v 31 then s.tksStop east
  else if was then s
  else if s.tksOk (s.tks east) then s.tksStart east
  else s.modTks east fun k => { k with cfgErr := true }

/-- TKS_ENABLE: the host writes enable from 0 to 1. -/
def execTksEnable (h : Half) (val : BitVec 32) (s : State) : Host.Outcome State Fault Refusal :=
  let e := isEast h
  if s.halfUp e && val.getLsbD 31 && !(s.tks e).enable then .next (s.writeTks e val.toNat) else .next s

/-- TKS_DISABLE: the host writes 0 to enable. -/
def execTksDisable (h : Half) (val : BitVec 32) (s : State) : Host.Outcome State Fault Refusal :=
  let e := isEast h
  if s.halfUp e && !val.getLsbD 31 then .next (s.writeTks e val.toNat) else .next s

end Sys2Proof.Machine
end

