-- ==== Sys2Proof/Machine/RegRead.lean ====
section
/-! DEFINITION. What the registers of BAR0 read, as the 64-bit words that naturally aligned accesses see (R11, R12, R401,
R402): a 32-bit register at an offset that is a multiple of 8 fills the low half of its word. -/
namespace Sys2Proof.Machine

/-- A field of a register, bits [hi:lo]. -/
def put (v hi lo : Nat) : Nat := v % 2 ^ (hi + 1 - lo) * 2 ^ lo

/-- A one-bit field. -/
def putBit (b : Bool) (i : Nat) : Nat := b2n b * 2 ^ i

/-- Registers of 2 or 4 bytes packed in a word, from index i on. -/
def packWord (bytes : Nat) (i : Nat) (f : Nat → Nat) : Nat := leNat ((List.range (8 / bytes)).flatMap fun k => leBytes bytes (f (i + k)))

/-! ## Device control block (R402) -/

/-- DEV_STAT.pstate (R491, R492). -/
def State.pstate (s : State) : Nat :=
  if !s.dev.eastAwake then 2
  else if s.started.isEmpty && s.clauses.all (fun x => x.run.isNone) && s.tiles.all (fun T => T.dmas.isEmpty) &&
      s.folds.isEmpty && s.atoms.isEmpty && s.links.all fun k => k.rxq.isEmpty && k.waiting.isEmpty then 1
  else 0

/-- DEV_TILEMAP entry i (R21). -/
def State.tilemapEntry (s : State) (i : Nat) : Nat := putBit (decide (i < s.nTiles)) 31 + s.physOf i

/-- The word at o of the registers below 0x0_3000. -/
def State.devWord (s : State) (o : Nat) : Nat :=
  if o = 0 then put 0xB0 31 24 + put (s.nTiles / 2) 23 16 + put (s.nTiles / 2) 15 8 + put s.fuse.grade 1 0
  else if o = 8 then
    putBit s.dev.ready 31 + putBit s.alarmed 30 + putBit s.dev.recovery 29 + put s.pstate 28 27 + put s.started.length 6 0
  else if o = 0x18 then s.dev.irqStat.toNat
  else if o = 0x20 then s.dev.irqMask.toNat
  else if o = 0x100 then b2n s.weave.requireSig
  else if o = 0x108 then
    putBit s.weave.staged.isSome 31 + putBit s.weave.installed.isSome 30 + putBit s.weave.locked 29 +
      put s.clauses.length 22 16 + put s.weave.loadStatus 15 8 + put s.weave.applyStatus 7 0
  else if o = 0x110 then s.weave.rbAddr.toNat
  else if o = 0x118 then s.weave.rbLen.toNat
  else if o = 0x120 then putBit s.weave.rbBusy 30 + putBit s.weave.rbDone 29 + put s.weave.rbStatus 15 8
  else if 0x140 ≤ o ∧ o < 0x180 then leAt (fitTo 64 s.weave.digest) (o - 0x140) 8
  else if 0x1000 ≤ o ∧ o < 0x1640 then packWord 4 ((o - 0x1000) / 4) s.tilemapEntry
  else if o = 0x2000 then
    putBit true 31 + putBit s.dev.eastAwake 30 + putBit s.dev.closing 29 + put s.dev.asleep 15 0
  else if o = 0x2008 then
    putBit s.dev.aGuard 63 + putBit s.dev.aUncorr 62 + put s.dev.aGuardRegion 55 48 + put s.dev.aCount 47 0
  else 0

/-- A hopper's registers (R278). -/
def Hopper.word (h : Hopper) (o : Nat) : Nat :=
  if o = 0 then
    putBit h.ready 31 + putBit h.entFail 30 + putBit h.failSeen 29 + putBit h.alarmed 28 +
      putBit (h.cells.any fun c => c.st == .startup) 27 + putBit h.capturing.isSome 26 + put h.healthy 20 16 +
      put h.units.length 11 0
  else if o = 8 then
    put (ofBits 16 fun i => (h.cells.getD i NoiseCell.reset).st == .locked) 31 16 +
      ofBits 16 fun i => (h.cells.getD i NoiseCell.reset).st == .healthy
  else if o = 0x10 then put h.rct 63 48 + put h.apt 47 32 + put h.startupErr 31 16 + put h.lockouts 15 0
  else if o = 0x18 then put h.persist.toNat 31 16 + put h.reserve.toNat 11 0
  else if o = 0x28 then put h.aptCutoff 31 16 + put h.rctCutoff 15 8
  else if o = 0x30 then h.deliv.toNat
  else if o = 0x38 then put h.capCell.toNat 63 60 + put h.capAddr.toNat 39 6
  else 0

/-- A token sampler's registers (R309). -/
def Tks.word (k : Tks) (o : Nat) : Nat :=
  if o = 0 then putBit k.enable 31 + put k.clause.toNat 21 16 + put k.sizeLog2.toNat 3 0
  else if o = 8 then k.ring.toNat
  else if o = 0x10 then k.tail.toNat
  else if o = 0x18 then k.head.toNat
  else if o = 0x20 then putBit k.busy 31 + putBit k.overrun 30 + putBit k.cfgErr 29 + put k.lastStatus 7 0
  else 0

/-- A stack's registers. -/
def Stack.word (k : Stack) (o : Nat) : Nat :=
  if o = 0 then
    putBit (k.up && !k.offline) 31 + putBit k.selfRefresh 30 + putBit k.offline 29 + put k.temp 23 16 + put k.rate 15 8
  else if o = 8 then put k.uncorr 63 48 + put k.parity 47 40 + put k.corr 39 0
  else if o = 0x10 then putBit k.uaValid 63 + put k.uaAddr 39 0
  else 0

/-- A rail's register. -/
def State.railWord (s : State) (east : Bool) : Nat :=
  let r := s.rail east
  put r.vout 63 48 + put r.vcmd 47 32 + put (min 65535 ((s.timer - r.lastOk) / 1000)) 31 16 + putBit r.uvSeen 1 +
    putBit r.noresp 0

/-- The hottest tile as PWR_STAT reports it, in whole °C; below 0 °C the manual gives no code (log entry 46). -/
def hotCode (tj : Int) : Nat := if tj < 0 then (Config.hotCode tj).toNat else min 255 (tj / 4).toNat

/-- The power block (R512). -/
def State.pwrWord (s : State) (o : Nat) : Nat :=
  let p := s.pwr
  if o = 0 then
    putBit s.dev.eastAwake 31 + putBit (decide ((s.rail false).vcmd < s.vset false)) 30 +
      putBit (decide ((s.rail true).vcmd < s.vset true)) 29 + put (hotCode (s.hottest false)) 15 8 +
      put (if s.dev.eastAwake then hotCode (s.hottest true) else 0) 7 0
  else if o = 8 then put p.vsetW.toNat 31 16 + put p.vsetE.toNat 15 0
  else if o = 0x10 then put p.tOn.toNat 31 24 + put p.tOff.toNat 23 16 + put p.step.toNat 15 8 + put p.period.toNat 7 0
  else if o = 0x18 then putBit p.retain 31 + putBit p.wakePlait 30 + put p.vigilPeriod.toNat 9 0
  else if o = 0x20 then s.railWord false
  else if o = 0x28 then s.railWord true
  else if o = 0x30 then
    put p.cause 31 28 + put p.wakeSrc 27 26 + putBit p.tripped 25 + putBit p.recoveryN 8 + put p.bootMode.toNat 5 4 +
      put p.plAddr.toNat 2 0
  else 0

/-- A slot's register. -/
def FwSlot.word (k : FwSlot) : Nat := put k.rollback.toNat 63 32 + put k.state 31 24 + put k.format 15 0

/-- The firmware block (R568). -/
def State.fwWord (s : State) (o : Nat) : Nat :=
  let f := s.fw
  if o = 0 then
    put (if s.dev.recovery then 3 else f.state) 31 30 + putBit f.pend 29 + putBit (f.stage.isSome || f.recBusy) 28 +
      putBit f.activeSlot 27 + put f.attempts 26 25 + put f.lastStatus 23 16 + put f.defaulted.toNat 15 8
  else if o = 8 then f.slot0.word
  else if o = 0x10 then f.slot1.word
  else if o = 0x18 then put f.floor.toNat 63 32 + b2n f.acceptChain
  else if o = 0x20 then putBit f.recBusy 29 + putBit f.recDone 28 + put f.recStatus 15 8
  else if o = 0x28 then put f.recOff.toNat 63 32 + put f.recCount.toNat 11 0
  else 0

/-- GLK_STAT.state. -/
def linkStateCode : LinkState → Nat
  | .off => 0
  | .training => 1
  | .opened => 2
  | .keyed => 3
  | .holding => 4
  | .failed => 5
  | .refused => 6

/-- A link's registers (R387). -/
def Link.word (k : Link) (o : Nat) : Nat :=
  if o = 0 then put k.hold.toNat 31 16 + putBit k.debugPeer 7 + b2n k.protect
  else if o = 8 then
    put k.peerId.toNat 63 48 + put (linkStateCode k.state) 47 45 + put k.laneBad.toNat 44 37 + put k.refuse 36 33 +
      putBit k.orphan 31 + put k.epoch.toNat 30 0
  else if o = 0x10 then put k.uncorr 63 48 + put k.tagFail 47 32 + put k.retries 31 16 + put k.retrains 15 0
  else if o = 0x18 then leNat (k.peerKeyId.take 8)
  else if o = 0x20 then k.txSeq.toNat
  else if o = 0x28 then k.rxSeq.toNat
  else 0

/-- GLK_WAKE. -/
def GlkWake.word (g : GlkWake) : Nat :=
  put g.device.toNat 63 48 + put g.hitLink 38 34 + putBit g.hit 33 + putBit g.mode 32 + g.enable.toNat

/-- The device control block's word at o. -/
def State.controlWord (s : State) (o : Nat) : Nat :=
  if o < 0x3000 then s.devWord o
  else if o < 0x3200 then (s.hop (decide (0x3100 ≤ o))).word (o % 0x100)
  else if o < 0x3400 then (s.tks (decide (0x3300 ≤ o))).word (o % 0x100)
  else if 0x4000 ≤ o ∧ o < 0x4C00 then (s.stack ((o - 0x4000) / 0x100)).word (o % 0x100)
  else if o = 0x6000 then put s.dev.pciGen 31 28 + put s.dev.pciWidth 27 23 + putBit s.dev.pciFlit 22
  else if o = 0x6008 then put s.dev.bar2Base.toNat 39 30
  else if 0x8000 ≤ o ∧ o < 0x9000 then s.pwrWord (o - 0x8000)
  else if 0x9000 ≤ o ∧ o < 0xA000 then s.fwWord (o - 0x9000)
  else if 0x10000 ≤ o ∧ o < 0x12000 then (s.link ((o - 0x10000) / 0x100)).word (o % 0x100)
  else if o = 0x12000 then s.glkWake.word
  else 0

/-! ## Host queues -/

/-- A queue's registers. -/
def State.queueWord (s : State) (q o : Nat) : Nat :=
  let k := s.queue q
  if o = 0 then putBit k.enable 31 + putBit (s.qActive q) 30 + put k.sqLog2 23 20 + put k.cqLog2 19 16 + b2n k.err
  else if o = 8 then k.sq.toNat
  else if o = 0x10 then k.cq.toNat
  else if o = 0x18 then put k.cqTail 31 16 + put k.sqHead 15 0
  else 0

/-! ## Tile windows -/

/-- Whether a tile has a live phrase, a queued item or an outstanding operation. -/
def State.tileRunning (s : State) (t : Nat) : Bool :=
  let T := s.tile t
  !T.live.isEmpty || !T.wq.isEmpty || !T.dmas.isEmpty || T.au.loading.isSome || T.os.loading.isSome || T.os.run.isSome ||
    s.atoms.any fun a => a.tile == t

/-- The sequencer's registers (R107, R129, R177). -/
def State.tsqWord (s : State) (t o : Nat) : Nat :=
  let T := s.tile t
  if o = 0 then
    putBit (s.tileRunning t) 31 + putBit ((T.clause.map s.frozen).getD false) 30 + putBit (T.held || T.dbg.held || s.mbHeld t) 29 +
      put T.live.length 22 16 + put T.wq.length 10 0
  else if o = 8 then
    putBit T.fault.valid 63 + put T.fault.cause 59 56 + put T.fault.phrase 55 50 + put T.fault.pc 44 32 + T.fault.detail.toNat
  else if o = 0x10 then T.fault.addr.toNat
  else if o = 0x18 then
    putBit T.au.isOpen 31 + putBit T.au.sat 30 + putBit (T.au.acc.any fun r => r.any fun a => a.inv) 29 + put T.au.mode 28 26 +
      put T.au.faultCause 25 23 + putBit (decide (65536 ≤ T.au.maxChunks)) 22 + put T.au.owner 21 16 + put T.au.maxChunks 15 0
  else if 0x100 ≤ o ∧ o < 0x200 then
    packWord 4 ((o - 0x100) / 4) fun p => (s.flagsOf t p).toNat
  else 0

/-- OSR_STAT.anchor_width. -/
def widthCode (w : Nat) : Nat := if w = 16 then 1 else if w = 32 then 2 else if w = 64 then 3 else 0

/-- The osier array's registers (R217). -/
def Tile.osrWord (T : Tile) (o : Nat) : Nat :=
  let u := T.os
  if o = 0 then
    put T.cal.cal.toNat 31 30 + putBit u.run.isSome 29 + put u.kind 28 27 + putBit u.bank 26 + putBit u.swapPending 25 +
      putBit u.idleBad 24 + putBit u.xclip 23 + putBit u.bclip 22 + putBit u.unbounded 21 +
      put (if u.present then u.strandCount else 0) 19 16 + put (if u.hasAnchors then widthCode u.anchorWidth else 0) 15 14 +
      put (if u.hasAnchors then u.anchorCount else 0) 13 7 + put u.strand 6 3
  else if o = 8 then put u.phase.toNat 63 32 + u.rounds.toNat
  else if o = 0x10 then u.beta.toNat
  else if o = 0x18 then put u.inEntry.toNat 63 32 + put u.index 9 0
  else if o = 0x20 then put u.frflip 47 0
  else if 0x100 ≤ o ∧ o < 0x180 then packWord 2 ((o - 0x100) / 2) fun k => u.bank0.qerr.getD k 0
  else if 0x180 ≤ o ∧ o < 0x200 then packWord 2 ((o - 0x180) / 2) fun k => u.bank1.qerr.getD k 0
  else 0

/-- CAL_REF or CAL_NOW. -/
def CalVals.word (v : CalVals) : Nat := put (unsigned 16 v.tj) 63 48 + put v.vc 47 32 + put v.va 31 16

/-- The calibrator's registers (R235). -/
def State.calWord (s : State) (t o : Nat) : Nat :=
  let k := (s.tile t).cal
  if o = 0 then
    put k.seq.toNat 63 32 + put k.step 31 28 + put k.trigger 27 24 + put k.failReason 23 20 + put k.restarts 19 16 +
      put k.fails 15 8 + putBit k.vsrc 7 + putBit k.spot 6
  else if o = 0x10 then put k.dt.toNat 31 24 + put k.dv.toNat 23 16 + put k.spotPeriod.toNat 15 8 + put k.spotIdle.toNat 7 0
  else if o = 0x18 then k.ref.word
  else if o = 0x20 then k.now.word
  else if o = 0x28 then put k.perr.toNat 63 48 + put k.acorr.toNat 47 32 + put k.ncorr.toNat 31 16 + k.jerr.toNat
  else if o = 0x30 then put k.driftLast.toNat 63 48 + put k.driftWorst.toNat 47 32 + put k.driftCount 31 0
  else if 0x100 ≤ o ∧ o < 0x140 then k.ufail.toNat / 2 ^ (8 * (o - 0x100)) % 2 ^ 64
  else if 0x800 ≤ o ∧ o < 0x1000 then packWord 4 ((o - 0x800) / 4) fun i => (s.trimWord t i).toNat / 256 * 256
  else 0

/-- A breakpoint's register. -/
def Bp.word (b : Bp) : Nat := putBit b.enable 63 + putBit b.anyPhrase 62 + put b.phrase.toNat 55 50 + put b.pc.toNat 44 32

/-- The tally and debug registers of a tile. -/
def State.shellWord (s : State) (t o : Nat) : Nat :=
  let T := s.tile t
  let d := T.dbg
  if 0x6000 ≤ o ∧ o < 0x6300 then
    let k := (o - 0x6000) / 8
    if k < s.tly.cfg.count then countWord (T.cnt.getD k 0) else 0
  else if o = 0x6308 then put T.pendTicks 47 0
  else if o = 0x7000 then putBit d.hold 31 + putBit d.holdEn 29 + putBit d.bpClause 28 + put d.stepPhrase.toNat 5 0
  else if o = 0x7008 then
    putBit d.held 31 + put d.reason 30 28 + put d.phrase 27 22 + put d.bp 21 20 + putBit d.stepPending 19 + put d.pc 12 0
  else if 0x7010 ≤ o ∧ o < 0x7030 then (d.bps.getD ((o - 0x7010) / 8) Bp.reset).word
  else 0

/-- The window of logical tile t. -/
def State.tileWord (s : State) (t o : Nat) : Nat :=
  let T := s.tile t
  if o < 0x1000 then s.tsqWord t o
  else if 0x2000 ≤ o ∧ o < 0x3000 then T.osrWord (o - 0x2000)
  else if 0x3000 ≤ o ∧ o < 0x4000 then s.calWord t (o - 0x3000)
  else if o = 0x4000 then
    putBit T.lwrap 31 + ofBits 16 fun n => (T.clause.bind fun c => s.grantedKey c n).isSome
  else if o = 0x4008 then put T.pgBlocks 47 0
  else if o = 0x5000 then put T.winDirect.toNat 27 24 + put T.winFallback 23 21
  else if o = 0x5100 then
    putBit T.fld.mismatch 63 + putBit T.fld.satSeen 62 + put T.fld.mmSlot 57 48 + put T.fld.mmBase.toNat 47 16 +
      put (s.foldBuffered t) 6 0
  else if 0x6000 ≤ o then s.shellWord t o
  else 0

/-- The physical ID of the tile whose window holds an offset of the tile windows (R402). -/
def windowTile (o : Nat) : Nat :=
  let k := (o - 0x1000000) / 0x10000
  512 * (k / 200) + 16 * (k % 200 / 10) + k % 10

/-! ## Mailboxes, security, tallies -/

/-- A mailbox block's word. -/
def Mbox.word (m : Mbox) (o : Nat) : Nat :=
  if o = 0 then putBit m.busy 30 + putBit m.done 29 + put m.status 15 8
  else if 0x40 ≤ o ∧ o < 0x80 then leAt (fitTo 64 m.req) (o - 0x40) 8
  else if o = 0x100 then putBit m.hold 31 + putBit m.held 29
  else if 0x80000 ≤ o then m.window.readLe (o - 0x80000) 8
  else 0

/-- The digest that SEC_KS_DIGEST reads for an entry (R454, R455). -/
def State.ksDigest (s : State) (k : Nat) : List Byte := fitTo 16 (((s.key k).map (·.digest)).getD [])

/-- The security block's word (R429, R490). -/
def State.secWord (s : State) (o : Nat) : Nat :=
  let x := s.sec
  if o = 0 then
    putBit x.session 63 + putBit (s.hasKey 0) 62 + putBit x.idErased 61 + putBit s.sanitizing 60 + put x.debug 59 58 +
      put x.ksBad 55 48 + x.sessionId.toNat
  else if o = 8 then ofBits 52 s.hasKey
  else if o = 0x18 then putBit x.nonceValid 29 + put x.debug 31 30 + put x.lastResult 23 16 + put x.dbgFails 15 8
  else if 0x40 ≤ o ∧ o < 0x60 then leAt (fitTo 32 x.nonce) (o - 0x40) 8
  else if o = 0x100 then s.alm.policy.toNat
  else if o = 0x108 then
    put s.alm.tLow.toNat 31 24 + put s.alm.tHigh.toNat 23 16 + put s.alm.authLimit.toNat 15 8 + put s.alm.dbgLimit.toNat 7 0
  else if o = 0x110 then
    putBit s.alarmed 63 + put s.alm.latched.toNat 59 54 + put s.almPresent.toNat 53 48 + put s.alm.worst 47 46
  else if 0x120 ≤ o ∧ o < 0x130 then leAt (fitTo 16 ((tab 6 fun k => leBytes 2 (s.alm.counts.getD k 0)).flatten)) (o - 0x120) 8
  else if 0x200 ≤ o ∧ o < 0x540 then leAt (s.ksDigest ((o - 0x200) / 16)) (o % 16) 8
  else if 0x1000 ≤ o ∧ o < 0x1200 then (s.gloss.req.getD ((o - 0x1000) / 8) 0).toNat
  else if 0x1200 ≤ o ∧ o < 0x1400 then
    let c := (o - 0x1200) / 8
    put (s.gloss.status.getD c 0) 63 56 + put (s.gloss.offset.getD c 0) 47 32 + put (s.gloss.count.getD c 0) 31 0
  else 0

/-- The tally block's word. -/
def State.tlyWord (s : State) (o : Nat) : Nat :=
  let y := s.tly
  if o = 0 then putBit y.dumping 29 + b2n y.cfg.dedicated
  else if o = 8 then put y.dumps 63 32 + put y.dropped 31 0
  else if o = 0x10 then s.timer % 2 ^ 64
  else if o = 0x18 then put y.cfg.period 63 32 + put y.cfg.region 15 0
  else if 0x20 ≤ o ∧ o < 0x30 then packWord 2 ((o - 0x20) / 2) fun k => y.cfg.events.getD k 0
  else if 0x1000 ≤ o ∧ o < 0x1640 then
    let r := y.rim.getD ((o - 0x1000) / 16) (0, 0)
    if o % 16 = 0 then r.1 else r.2
  else 0

/-! ## BAR0 -/

/-- Whether an offset lies in registers of the East half, those of its fused-off tiles too, which a sleeping half does not serve
(R311, R324). -/
def eastReg (o : Nat) : Bool :=
  (decide (0x3100 ≤ o) && decide (o < 0x3200)) || (decide (0x3300 ≤ o) && decide (o < 0x3400)) ||
    (decide (0x11000 ≤ o) && decide (o < 0x12000)) || (decide (0x3100000 ≤ o) && decide (o < 0x3200000)) ||
    (decide (0x1000000 ≤ o) && decide (o < 0x2900000) && 512 ≤ windowTile o)

/-- Whether the ROM recovery mode serves an offset (R565). -/
def recoveryReg (o : Nat) : Bool := o == 0 || o == 8 || o == 0x6000 || (decide (0x9000 ≤ o) && decide (o < 0xA000))

/-- The word of BAR0 at a multiple of 8. -/
def State.bar0Word (s : State) (o : Nat) : Nat :=
  if s.dev.recovery && !recoveryReg o then 0
  else if o < 0x100000 then s.controlWord o
  else if o < 0x101000 then s.queueWord ((o - 0x100000) / 0x100) (o % 0x100)
  else if 0x1000000 ≤ o ∧ o < 0x2900000 then
    match s.logicalOf (windowTile o) with
    | some t => s.tileWord t (o % 0x10000)
    | none => if o % 0x10000 = 0x5000 then 2 ^ 31 else 0
  else if 0x3000000 ≤ o ∧ o < 0x3100000 then s.mboxW.word (o - 0x3000000)
  else if 0x3100000 ≤ o ∧ o < 0x3200000 then s.mboxE.word (o - 0x3100000)
  else if 0x3800000 ≤ o ∧ o < 0x3C00000 then s.secWord (o - 0x3800000)
  else if 0x3C00000 ≤ o ∧ o < 0x4000000 then s.tlyWord (o - 0x3C00000)
  else 0

/-- Whether an access is naturally aligned in BAR0 (R401). -/
def bar0Aligned (off : Nat) (wide : Bool) : Bool := decide (off < 0x4000000) && off % (if wide then 8 else 4) == 0

/-- A read of BAR0 of 4 or 8 bytes: the value and the state; what a sleeping half would return is open (R324). -/
def State.bar0Read (s : State) (off : Nat) (wide : Bool) : Nat × State :=
  let o := off / 8 * 8
  let (w, s) := if s.halfClosed true && eastReg o then
      ((Config.free64 s.free).toNat, { s.noteAsleep with free := s.free + 1 })
    else (s.bar0Word o, s)
  (if wide then w else if off % 8 = 0 then w % 2 ^ 32 else w / 2 ^ 32, s)

end Sys2Proof.Machine
end

