-- ==== Sys2Proof/Machine/RegWrite.lean ====
section
/-! DEFINITION. What a write to a register of BAR0 does, field by field (R11-R14, R401, R402). A write carries a 64-bit word and
the mask of the bits that the access covers. -/
namespace Sys2Proof.Machine

/-- A write as it meets a word: its bits and the bits it covers. -/
structure Wr where
  val : Nat
  mask : Nat
  deriving DecidableEq, Repr

/-- The word of an access of 4 or 8 bytes at an offset. -/
def wrOf (off : Nat) (wide : Bool) (val : BitVec 64) : Wr :=
  if wide then { val := val.toNat, mask := 2 ^ 64 - 1 }
  else if off % 8 = 0 then { val := val.toNat % 2 ^ 32, mask := 2 ^ 32 - 1 }
  else { val := val.toNat % 2 ^ 32 * 2 ^ 32, mask := (2 ^ 32 - 1) * 2 ^ 32 }

/-- Whether a write covers the low half of its word, where 32-bit registers stand. -/
def Wr.low (w : Wr) : Bool := bitAt w.mask 0

/-- The low half as written. -/
def Wr.word (w : Wr) : Nat := w.val % 2 ^ 32

/-- Whether a write has a 1 at a bit that it covers. -/
def Wr.bit (w : Wr) (i : Nat) : Bool := bitAt (w.val &&& w.mask) i

/-- A W1C bit. -/
def Wr.clears (w : Wr) (i : Nat) (old : Bool) : Bool := old && !w.bit i

/-- A 64-bit RW register. -/
def Wr.into (w : Wr) (old : BitVec 64) : BitVec 64 := BitVec.ofNat 64 (maskWrite old.toNat w.mask w.val)

/-- A field of a 64-bit register as a write leaves it. -/
def Wr.field (w : Wr) (old hi lo : Nat) : Nat := bitsAt (maskWrite (old * 2 ^ lo) w.mask w.val) hi lo

/-- The bytes that a write stores at a word's offset o. -/
def Wr.bytesAt (w : Wr) (o : Nat) : Nat × List Byte :=
  if w.mask = 2 ^ 64 - 1 then (o, leBytes 8 w.val)
  else if w.low then (o, leBytes 4 w.val)
  else (o + 4, leBytes 4 (w.val / 2 ^ 32))

/-- The state where the weave does not lock RWL fields, changed (R62). -/
def State.unlocked (s : State) (f : State → State) : State := if s.weave.locked then s else f s

/-! ## Device control block -/

/-- The registers below 0x0_3000. -/
def State.devWrite (s : State) (o : Nat) (w : Wr) : State :=
  if o = 0x10 then (if w.low && bitsAt w.word 31 16 == 0x4A53 && bitAt w.word 0 then s.warmReset 4 else s)
  else if o = 0x18 then
    { s with dev := { s.dev with irqStat := s.dev.irqStat &&& ~~~(BitVec.ofNat 7 (w.val &&& w.mask)) } }
  else if o = 0x20 then (if w.low then { s with dev := { s.dev with irqMask := BitVec.ofNat 7 w.word } } else s)
  else if o = 0x100 then (if w.low then { s with weave := { s.weave with requireSig := bitAt w.word 0 } } else s)
  else if o = 0x110 then { s with weave := { s.weave with rbAddr := w.into s.weave.rbAddr } }
  else if o = 0x118 then { s with weave := { s.weave with rbLen := w.into s.weave.rbLen } }
  else if o = 0x120 then
    { s with weave := { s.weave with rbDone := w.clears 29 s.weave.rbDone, rbBusy := s.weave.rbBusy || w.bit 31 } }
  else if o = 0x2008 then
    { s with dev := { s.dev with aGuard := w.clears 63 s.dev.aGuard, aUncorr := w.clears 62 s.dev.aUncorr } }
  else s

/-- A hopper block (R278). -/
def State.hopWrite (s : State) (e : Bool) (o : Nat) (w : Wr) : State :=
  if o = 0 then s.modHop e fun h => { h with failSeen := w.clears 29 h.failSeen }
  else if o = 0x18 then
    s.unlocked fun s => if w.low then s.modHop e fun h =>
      { h with persist := BitVec.ofNat 16 (bitsAt w.word 31 16), reserve := BitVec.ofNat 12 w.word } else s
  else if o = 0x20 then
    let s := if w.bit 0 then s.hopRetest e else s
    if w.bit 1 then s.hopCapture e else s
  else if o = 0x38 then
    s.modHop e fun h =>
      { h with capCell := BitVec.ofNat 4 (w.field h.capCell.toNat 63 60), capAddr := BitVec.ofNat 34 (w.field h.capAddr.toNat 39 6) }
  else s

/-- A token-sampler block (R309). -/
def State.tksWrite (s : State) (e : Bool) (o : Nat) (w : Wr) : State :=
  if o = 0 then (if w.low then s.writeTks e w.word else s)
  else if o = 8 then s.modTks e fun k => { k with ring := w.into k.ring }
  else if o = 0x10 then s.modTks e fun k => { k with tail := w.into k.tail }
  else if o = 0x20 then s.modTks e fun k => { k with overrun := w.clears 30 k.overrun, cfgErr := w.clears 29 k.cfgErr }
  else if o = 0x28 then (if w.bit 0 then s.tksPoll e else s)
  else s

/-- The power block (R512). -/
def State.pwrWrite (s : State) (o : Nat) (w : Wr) : State :=
  let v := w.word
  if o = 8 then (if w.low then s.writeVset v else s)
  else if o = 0x10 then
    s.unlocked fun s => if w.low then
        { s with pwr := { s.pwr with
            tOn := BitVec.ofNat 8 (bitsAt v 31 24), tOff := BitVec.ofNat 8 (bitsAt v 23 16),
            step := BitVec.ofNat 8 (bitsAt v 15 8), period := BitVec.ofNat 8 v } }
      else s
  else if o = 0x18 then
    if w.low then
      { s with pwr := { s.pwr with retain := bitAt v 31, wakePlait := bitAt v 30, vigilPeriod := BitVec.ofNat 10 v } }
    else s
  else if o = 0x20 then s.modRail false fun r => { r with uvSeen := w.clears 1 r.uvSeen }
  else if o = 0x28 then s.modRail true fun r => { r with uvSeen := w.clears 1 r.uvSeen }
  else s

/-- The firmware block (R566, R568); FW_CFG.accept_chain stands in the settings record. -/
def State.fwWrite (s : State) (o : Nat) (w : Wr) : State :=
  if o = 0x18 then
    if w.low then { s with fw := { s.fw with acceptChain := bitAt w.word 0 } }.saveSettings else s
  else if o = 0x20 then
    let s := { s with fw := { s.fw with recDone := w.clears 28 s.fw.recDone } }
    let s := if w.bit 31 then s.recovGo else s
    if w.bit 30 then s.recovFinish else s
  else if o = 0x28 then
    { s with fw := { s.fw with recOff := BitVec.ofNat 32 (w.field s.fw.recOff.toNat 63 32)
                               recCount := BitVec.ofNat 12 (w.field s.fw.recCount.toNat 11 0) } }
  else if 0x800 ≤ o then
    let (a, l) := w.bytesAt (o - 0x800)
    { s with fw := { s.fw with recBuf := s.fw.recBuf.write a l } }
  else s

/-- A link's registers (R387). -/
def State.glkWrite (s : State) (n o : Nat) (w : Wr) : State :=
  if o = 0 then
    s.unlocked fun s => if w.low then s.modLink n fun k =>
      { k with hold := BitVec.ofNat 16 (bitsAt w.word 31 16), debugPeer := bitAt w.word 7, protect := bitAt w.word 0 } else s
  else if o = 8 then s.modLink n fun k => { k with orphan := w.clears 31 k.orphan }
  else if o = 0x30 then (if w.low then s.writeGlkCmd n w.word else s)
  else s

/-- GLK_WAKE: hit is W1C, mode RW. -/
def GlkWake.write (g : GlkWake) (w : Wr) : GlkWake :=
  { g with hit := w.clears 33 g.hit, mode := decide (w.field (b2n g.mode) 32 32 = 1) }

/-- The device control block. -/
def State.controlWrite (s : State) (o : Nat) (w : Wr) : State :=
  if o < 0x3000 then s.devWrite o w
  else if o < 0x3200 then s.hopWrite (decide (0x3100 ≤ o)) (o % 0x100) w
  else if o < 0x3400 then s.tksWrite (decide (0x3300 ≤ o)) (o % 0x100) w
  else if 0x4000 ≤ o ∧ o < 0x4C00 then
    if o % 0x100 = 0x10 then s.modStack ((o - 0x4000) / 0x100) fun k => { k with uaValid := w.clears 63 k.uaValid } else s
  else if o = 0x6008 then
    { s with dev := { s.dev with bar2Base := BitVec.ofNat 10 (w.field s.dev.bar2Base.toNat 39 30) } }
  else if 0x8000 ≤ o ∧ o < 0x9000 then s.pwrWrite (o - 0x8000) w
  else if 0x9000 ≤ o ∧ o < 0xA000 then s.fwWrite (o - 0x9000) w
  else if 0x10000 ≤ o ∧ o < 0x12000 then s.glkWrite ((o - 0x10000) / 0x100) (o % 0x100) w
  else if o = 0x12000 then { s with glkWake := s.glkWake.write w }
  else s

/-- A queue's registers (R405). -/
def State.queueWrite (s : State) (q o : Nat) (w : Wr) : State :=
  if o = 0 then (if w.low then s.writeQcfg q w.word else s)
  else if o = 8 then s.modQueue q fun k => { k with sq := w.into k.sq }
  else if o = 0x10 then s.modQueue q fun k => { k with cq := w.into k.cq }
  else s

/-! ## Tile windows -/

/-- The sticky flags of a phrase as a write of its 32 bits leaves them. -/
def Phrase.clearFlags (ph : Phrase) (v : Nat) : Phrase := { ph with vflags := ph.vflags &&& ~~~(BitVec.ofNat 5 v) }

/-- A slot's TSQ_VFLAGS as a write of its 32 bits leaves them: those of its live phrase, or what an ended one left. -/
def State.clearFlags (s : State) (t p v : Nat) : State :=
  match s.phraseAt t p with
  | some ph => s.setPhrase t p (some (ph.clearFlags v))
  | none => s.modTile t fun T => { T with endFlags := T.endFlags.modify p fun fl => fl &&& ~~~(BitVec.ofNat 5 v) }

/-- TSQ_VFLAGS of the two phrases of a word. -/
def State.flagsWrite (s : State) (t p : Nat) (w : Wr) : State :=
  let v := w.val &&& w.mask
  (s.clearFlags t p (v % 2 ^ 32)).clearFlags t (p + 1) (v / 2 ^ 32)

/-- The calibrator's registers (R231, R235). -/
def State.calWrite (s : State) (t o : Nat) (w : Wr) : State :=
  if o = 8 then
    let s := if w.bit 0 then s.calStart t else s
    if w.bit 1 then s.modCal t fun k => { k with spotCmd := true } else s
  else if o = 0x10 then
    s.unlocked fun s => if w.low then s.modCal t fun k =>
      { k with dt := BitVec.ofNat 8 (bitsAt w.word 31 24), dv := BitVec.ofNat 8 (bitsAt w.word 23 16),
               spotPeriod := BitVec.ofNat 8 (bitsAt w.word 15 8), spotIdle := BitVec.ofNat 8 w.word } else s
  else s

/-- The window of logical tile t. -/
def State.tileWrite (s : State) (t o : Nat) (w : Wr) : State :=
  if 0x100 ≤ o ∧ o < 0x200 then s.flagsWrite t ((o - 0x100) / 4) w
  else if o = 0x2000 then
    s.modOs t fun u => { u with xclip := w.clears 23 u.xclip, bclip := w.clears 22 u.bclip, unbounded := w.clears 21 u.unbounded }
  else if 0x3000 ≤ o ∧ o < 0x4000 then s.calWrite t (o - 0x3000) w
  else if o = 0x4000 then s.modTile t fun T => { T with lwrap := w.clears 31 T.lwrap }
  else if o = 0x5100 then
    s.modTile t fun T => { T with fld := { T.fld with mismatch := w.clears 63 T.fld.mismatch, satSeen := w.clears 62 T.fld.satSeen } }
  else if o = 0x6300 then (if w.bit 0 then s.clearTile t else s)
  else if o = 0x7000 then (if w.low then s.writeTileDbg t w.word else s)
  else if 0x7010 ≤ o ∧ o < 0x7030 then
    let b := (o - 0x7010) / 8
    s.writeTileBp t b (maskWrite (((s.tile t).dbg.bps.getD b Bp.reset).word) w.mask w.val)
  else s

/-! ## Mailboxes, security, tallies -/

/-- Bytes replaced in a string. -/
def overwrite (l : List Byte) (a : Nat) (b : List Byte) : List Byte := l.take a ++ b ++ l.drop (a + b.length)

/-- A mailbox block (R522, R534). -/
def State.mboxWrite (s : State) (e : Bool) (o : Nat) (w : Wr) (viaTap : Bool) : State :=
  if o = 0 then
    let s := s.modMbox e fun m => { m with done := w.clears 29 m.done }
    if w.bit 31 then s.mbGo e viaTap else s
  else if 0x40 ≤ o ∧ o < 0x80 then
    let (a, l) := w.bytesAt (o - 0x40)
    s.modMbox e fun m => if m.busy then m else { m with req := overwrite (fitTo 64 m.req) a l }
  else if o = 0x100 then (if w.low then s.writeSteward e w.word else s)
  else if 0x80000 ≤ o then
    let (a, l) := w.bytesAt (o - 0x80000)
    s.modMbox e fun m => { m with window := m.window.write a l }
  else s

/-- The security block (R429, R480, R490). -/
def State.secWrite (s : State) (o : Nat) (w : Wr) : State :=
  if o = 0x10 then (if w.low then s.writeDbgCtl w.word else s)
  else if o = 0x100 then (if w.low then s.writePolicy w.word else s)
  else if o = 0x108 then (if w.low then s.writeAlmCfg w.word else s)
  else if 0x800 ≤ o ∧ o < 0xD60 then
    let (a, l) := w.bytesAt (o - 0x800)
    { s with sec := { s.sec with token := s.sec.token.write a l } }
  else if 0x1000 ≤ o ∧ o < 0x1200 then
    { s with gloss := { s.gloss with
        req := s.gloss.req.modify ((o - 0x1000) / 8) fun v => BitVec.ofNat 64 ((w.into v).toNat / 64 * 64) } }
  else s

/-- The tally block. -/
def State.tlyWrite (s : State) (o : Nat) (w : Wr) : State :=
  if o = 0 then
    let s := if w.bit 31 then s.clearTallies else s
    if w.bit 30 then s.snapshot s.timer else s
  else s

/-! ## BAR0 -/

/-- A write met by the word of BAR0 at a multiple of 8. -/
def State.bar0Put (s : State) (o : Nat) (w : Wr) (viaTap : Bool) : State :=
  if o < 0x100000 then s.controlWrite o w
  else if o < 0x101000 then s.queueWrite ((o - 0x100000) / 0x100) (o % 0x100) w
  else if 0x1000000 ≤ o ∧ o < 0x2900000 then
    match s.logicalOf (windowTile o) with
    | some t => s.tileWrite t (o % 0x10000) w
    | none => s
  else if 0x3000000 ≤ o ∧ o < 0x3100000 then s.mboxWrite false (o - 0x3000000) w viaTap
  else if 0x3100000 ≤ o ∧ o < 0x3200000 then s.mboxWrite true (o - 0x3100000) w viaTap
  else if 0x3800000 ≤ o ∧ o < 0x3C00000 then s.secWrite (o - 0x3800000) w
  else if 0x3C00000 ≤ o ∧ o < 0x4000000 then s.tlyWrite (o - 0x3C00000) w
  else s

/-- Whether the registers take writes: the part is ready, or in recovery the register is one it serves. -/
def State.bar0Serves (s : State) (o : Nat) : Bool := s.up && if s.dev.recovery then recoveryReg o else s.dev.ready

/-- A write to BAR0 of 4 or 8 bytes, from the host, the plait bus or the TAP: an access that is not aligned changes nothing, nor
does one into registers of a sleeping half (R324, R401). -/
def State.bar0Write (s : State) (off : Nat) (wide : Bool) (val : BitVec 64) (viaTap : Bool) : State :=
  let o := off / 8 * 8
  if !bar0Aligned off wide || !s.bar0Serves o then s
  else if s.halfClosed true && eastReg o then s.noteAsleep
  else s.bar0Put o (wrOf off wide val) viaTap

/-- Whether an access of BAR0 has a width or an alignment that the part does not take (R401). -/
def bar0Odd (off bytes : Nat) : Bool :=
  decide (off < 0x4000000) && !((bytes == 4 || bytes == 8) && off % bytes == 0)

/-- An access completed with Unsupported Request, which AER records (R397, R401). -/
def State.refuseAccess (s : State) : State :=
  { s with dev := { s.dev with unsupp := true } }.emit .unsupportedRequest

/-- REGISTER_WRITE: a write to BAR0, or to one of the function's own registers that configure BAR2 and report errors (R397,
R398, R401). -/
def execRegisterWrite (off : Nat) (acc : RegAcc) (val : BitVec 64) (s : State) : Host.Outcome State Fault Refusal :=
  .next
    (if !s.up then s
     else match acc with
      | .bar0 n => if bar0Odd off n then s.refuseAccess else s.bar0Write off (n == 8) val false
      | .bar2Size => if 30 ≤ val.toNat && val.toNat ≤ 40 then { s with dev := { s.dev with bar2Log2 := val.toNat } } else s
      | .aerStatus => { s with dev := { s.dev with unsupp := s.dev.unsupp && !val.getLsbD 20 } })

/-! ## The plait bus (R513-R520) -/

/-- Whether a write reaches a register: it is served, and not one of a sleeping half. -/
def State.bar0Reaches (s : State) (off : Nat) : Bool :=
  s.bar0Serves (off / 8 * 8) && !(s.halfClosed true && eastReg (off / 8 * 8))

/-- Whether a write reaches DBG_CTL, DBG_BP or DBG_SW_CTL and the debug level refuses it (R518). -/
def State.debugRefuses (s : State) (off : Nat) : Bool :=
  let win := off % 0x10000
  s.bar0Reaches off &&
    ((s.sec.debug == 0 && decide (0x1000000 ≤ off) && decide (off < 0x2900000) && (s.logicalOf (windowTile off)).isSome &&
      (win == 0x7000 || (decide (0x7010 ≤ win) && decide (win < 0x7030)))) ||
    (s.sec.debug != 2 && (off == 0x3000100 || off == 0x3100100)))

/-- Whether the chief steward serves the plait bus (R520, R534, R565). -/
def State.plaitServes (s : State) : Bool := s.up && (s.dev.ready || s.dev.recovery) && !s.mboxW.held

/-- The bytes that follow the address byte, offset and control, with what they ask: none where the transaction is malformed. -/
def plaitWrong (b : List Byte) : Bool :=
  let ctl := byteAt b 5
  let wide := ctl == 0x40
  let rd := bitAt (byteAt b 0) 0
  let n := 7 + if rd then 0 else if wide then 8 else 4
  !(ctl == 0 || ctl == 0x40) || b.length != n || crc8 (b.take (b.length - 1)) != b.getD (b.length - 1) 0 ||
    beNat (slice b 1 4) % (if wide then 8 else 4) != 0

/-- A response: its status, its data, its check byte (R516, R517). -/
def plaitAnswer (status : Nat) (data : List Byte) : List Byte :=
  let l := BitVec.ofNat 8 status :: data
  l ++ [crc8 l]

/-- What the bytes between a transaction's marks do, and the bytes of the response (R516-R518). -/
def State.plaitAccess (s : State) (b : List Byte) : List Byte × State :=
  if plaitWrong b then (plaitAnswer stCmdArg [], s)
  else
    let off := beNat (slice b 1 4)
    let wide := byteAt b 5 == 0x40
    let n := if wide then 8 else 4
    if bitAt (byteAt b 0) 0 then
      let (v, s) := if off < 0x4000000 then s.bar0Read off wide else (0, s)
      (plaitAnswer stOK (beBytes n v), s)
    else
      (plaitAnswer (if s.debugRefuses off then stLocked else stOK) [],
        s.bar0Write off wide (BitVec.ofNat 64 (beNat (slice b 6 n))) false)

/-- The symbol that the levels of PL_D0 and PL_D1 spell (R514). -/
def symbolOf (d0 d1 : Bool) : PlSymbol :=
  match d0, d1 with
  | false, false => .spacer
  | true, false => .bit false
  | false, true => .bit true
  | true, true => .mark

/-- The rails raised to a symbol, or returned to spacer. -/
def Plait.drive (p : Plait) (x : PlSymbol) : Plait :=
  match x with
  | .spacer => { p with d0 := false, d1 := false }
  | .bit b => { p with d0 := !b, d1 := b }
  | .mark => { p with d0 := true, d1 := true }

/-- Bytes as bits, each most significant first (R514). -/
def byteBits (l : List Byte) : List Bool := l.flatMap fun b => tab 8 fun i => b.getLsbD (7 - i)

/-- Whole bytes of bits, each most significant first. -/
def bitBytes (l : List Bool) : List Byte :=
  tab (l.length / 8) fun i => BitVec.ofNat 8 (ofBits 8 fun j => l.getD (8 * i + (7 - j)) false)

/-- Whether the closing mark is due after these bits: after the check byte, which stands where the control byte says; after a
control byte of neither kind, or after bytes too many, at the end of any byte (R516, R518, R519; log entry 105, DEDUCED). -/
def plaitDue (bits : List Bool) : Bool :=
  let b := bitBytes bits
  let ctl := byteAt b 5
  let n := 7 + if bitAt (byteAt b 0) 0 then 0 else if ctl == 0x40 then 8 else 4
  bits.length % 8 == 0 && decide (7 ≤ b.length) && (!(ctl == 0 || ctl == 0x40) || decide (n ≤ b.length))

/-- Whether the transaction being received names this device. -/
def State.plaitMine (s : State) : Bool := decide (8 ≤ s.plait.bits.length) && byteAt (bitBytes s.plait.bits) 0 / 2 == s.plaitAddr

/-- The receiver after a symbol: a mark opens a transaction, closes it where it is due, or ends it and opens the next
(R516, R519). -/
def Plait.hear (p : Plait) (x : PlSymbol) : Plait :=
  match x with
  | .bit b => if p.inTxn then { p with bits := p.bits ++ [b] } else p
  | .mark =>
    if p.inTxn && plaitDue p.bits then { p with inTxn := false, closed := true }
    else { p with inTxn := true, closed := false, bits := [] }
  | .spacer => p

/-- The acknowledge of a symbol just received (R520): the opening mark and the address byte of every transaction, its bit [0]
once the bus is served, later symbols of this device's own; none in vigil where no address match is to wake it. -/
def State.plaitAck (s : State) : State :=
  let p := s.plait
  let n := p.bits.length
  let on := !s.pwr.stbyReset && !(s.pwr.vigil && !s.pwr.wakePlait) && (p.inTxn || p.closed)
  { s with plait := { p with
      ack := on && (decide (n < 8) || (if n = 8 then s.plaitServes else s.plaitMine))
      owed := on && n == 8 && !s.plaitServes } }

/-- An acknowledge that was withheld, given once the bus is served (R500, R520). -/
def State.plaitOwed (s : State) : State :=
  if s.plait.owed && s.plaitServes then { s with plait := { s.plait with ack := true, owed := false } } else s

/-- After the closing mark's spacer: the access is performed and the response begins with its mark (R516). -/
def State.plaitRespond (s : State) : State :=
  let p := s.plait
  if p.closed && s.plaitMine && symbolOf p.d0 p.d1 == .spacer && s.plaitServes then
    let (l, s) := s.plaitAccess (bitBytes p.bits)
    { s with plait := { Plait.reset.drive .mark with response := .mark :: (byteBits l).map .bit ++ [.mark] } }
  else s

/-- The rails as another party has set them (R515). -/
def State.plaitRails (s : State) (d0 d1 : Bool) : State :=
  let p := s.plait
  if !p.response.isEmpty then s
  else
    match symbolOf p.d0 p.d1, symbolOf d0 d1 with
    | .spacer, .spacer => s
    | .spacer, x => { s with plait := (p.drive x).hear x }.plaitAck
    | _, .spacer => { s with plait := { p.drive .spacer with ack := false, owed := false } }.plaitRespond
    | _, _ => s

/-- PL_ACK as the master has set it while Jaset sends (R515): the rails return to spacer, then the next symbol follows. -/
def Plait.acked (p : Plait) (up : Bool) : Plait :=
  match p.response with
  | [] => p
  | _ :: r =>
    if up && !p.ack then { p.drive .spacer with ack := true }
    else if !up && p.ack then { p.drive (r.headD .spacer) with ack := false, response := r }
    else p

/-- One phase that the other party drives. -/
def State.plaitEvent (s : State) (e : PlaitEv) : State :=
  match e with
  | .rails d0 d1 => s.plaitRails d0 d1
  | .ack up => { s with plait := s.plait.acked up }

/-- PLAIT_TRANSACTION: phases on the bus in order; an acknowledge or a response that waited until the bus is served comes
first. -/
def execPlaitTransaction (evs : List PlaitEv) (s : State) : Host.Outcome State Fault Refusal :=
  .next (evs.foldl State.plaitEvent s.plaitOwed.plaitRespond)

/-- PLAIT_RESPONSE_ABANDON (R519): what a write did stands. -/
def execPlaitResponseAbandon (s : State) : Host.Outcome State Fault Refusal :=
  .next (if s.plait.response.isEmpty then s else { s with plait := Plait.reset })

/-! ## The TAP (R487, R525-R527) -/

/-- IDCODE (R525). -/
def idCode : Nat := 0x10A53001 + 2 * Config.jep106.toNat

/-- Bits of a selected data register; a code of no instruction selects BYPASS (R525). -/
def tapLen (ir : BitVec 8) : Nat :=
  match ir.toNat with
  | 0x00 => Config.boundaryCells
  | 0x01 => Config.boundaryCells
  | 0x02 => 32
  | 0x10 => 32
  | 0x11 => 11008
  | 0x12 => 3
  | 0x20 => 104
  | _ => 1

/-- What a data register holds at Capture-DR, its first bit first out. What the cells at the pins hold is free; the write-only
registers and BYPASS capture 0 (log entry 106). -/
def State.tapCapture (s : State) : List Bool :=
  let n := tapLen s.tap.ir
  match s.tap.ir.toNat with
  | 0x00 => tab n fun i => Config.freeBit (s.free + i)
  | 0x01 => tab n fun i => Config.freeBit (s.free + i)
  | 0x02 => tab n fun i => bitAt idCode i
  | 0x10 => tab n fun i => bitAt (s.secWord 0x18) i
  | 0x20 => tab n fun i => bitAt (s.tap.status.toNat * 2 ^ 96 + s.tap.offset.toNat * 2 ^ 64 + s.tap.data.toNat) i
  | _ => List.replicate n false

/-- The number that bits spell, the first least significant. -/
def bitsNat (l : List Bool) : Nat := ofBits l.length fun i => l.getD i false

/-- DBG_ACCESS's result. -/
def State.tapResult (s : State) (status off v : Nat) : State :=
  { s with tap := { s.tap with status := BitVec.ofNat 8 status, offset := BitVec.ofNat 32 off, data := BitVec.ofNat 64 v } }

/-- DBG_ACCESS at Update-DR: one access; at debug level 0 it is refused and counted (R526, R527). -/
def State.tapAccess (s : State) (dr : Nat) : State :=
  let op := bitsAt dr 103 102
  let wide := bitAt dr 101
  let off := bitsAt dr 95 64
  if op = 0 || op = 3 then s
  else if s.sec.debug = 0 then s.debugFail
  else if !bar0Aligned off wide then s.tapResult stCmdArg off 0
  else if op = 1 then
    let (v, s) := s.bar0Read off wide
    s.tapResult stOK off v
  else
    (s.bar0Write off wide (BitVec.ofNat 64 (bitsAt dr 63 0)) true).tapResult
      (if s.debugRefuses off then stLocked else stOK) off 0

/-- Update-DR with what has been shifted in: the boundary cells, the token, SEC_DBG_CTL or an access (R487, R525). -/
def State.tapUpdate (s : State) (l : List Bool) : State :=
  match s.tap.ir.toNat with
  | 0x00 => { s with tap := { s.tap with boundary := l } }.emit (.boundary l)
  | 0x01 => { s with tap := { s.tap with boundary := l } }
  | 0x11 =>
    if s.up then
      { s with sec := { s.sec with token := s.sec.token.write 0 (tab 1376 fun i => BitVec.ofNat 8 (bitsNat ((l.drop (8 * i)).take 8))) } }
    else s
  | 0x12 => if s.up then s.writeDbgCtl (bitsNat l) else s
  | 0x20 => if s.up then s.tapAccess (bitsNat l) else s
  | _ => s

/-- What a scan, or TRST_N, does (R525): bits shifted in on TDI push the captured ones out on TDO. -/
def State.tapScan (s : State) (x : TapScan) : State :=
  match x with
  | .trst => { s with tap := { s.tap with ir := 2 } }
  | .ir code => { s with tap := { s.tap with ir := code } }
  | .dr tdi =>
    let l := s.tapCapture ++ tdi
    let s := { s with free := s.free + tapLen s.tap.ir, tap := { s.tap with tdo := l.take tdi.length } }
    s.tapUpdate (l.drop tdi.length)

/-- TAP_DBG_ACCESS: a scan of the TAP; under DBG_ACCESS a data scan makes one access (R526). -/
def execTapDbgAccess (x : TapScan) (s : State) : Host.Outcome State Fault Refusal := .next (s.tapScan x)

/-- TAP_DBG_CMD: DBG_CMD selected, and its three bits scanned in: SEC_DBG_CTL[2:0] written at Update-DR (R525). -/
def execTapDbgCmd (v : BitVec 3) (s : State) : Host.Outcome State Fault Refusal :=
  .next ((s.tapScan (.ir 0x12)).tapScan (.dr (tab 3 fun i => v.getLsbD i)))

end Sys2Proof.Machine
end

