-- ==== Sys2Proof/Machine/SeqVector.lean ====
section
/-! DEFINITION. Vector instructions, 0x30 to 0x43 (03: R109-R129, R587, R596; 04: R156, R163-R165, R169). -/
namespace Sys2Proof.Machine

/-- Results lane by lane in order: active lanes take the function's value, draws and flags thread through. -/
def runLanes (act : BitVec 64) (old : List (BitVec 32)) (f : Nat → Draws → Nat × BitVec 5 × Draws) (d : Draws) :
    List (BitVec 32) × BitVec 5 × Draws :=
  (List.range 64).foldl (fun st l =>
    if act.getLsbD l then
      let (v, fl, d) := f l st.2.2
      (st.1 ++ [BitVec.ofNat 32 v], st.2.1 ||| fl, d)
    else (st.1 ++ [old.getD l 0], st.2.1, st.2.2)) ([], 0, d)

/-- A vector instruction's end: the engine's counters and the vector steps (R109, R540). -/
def Ctx.vecState (x : Ctx) (d : Draws) (sr : Bool) : State :=
  let s := (x.s.tookDraws x.t d sr).tally x.t 0x18 1
  if sr then s.tally x.t 0x19 1 else s

/-- Completion of a lane-wise vector instruction into v[d]. -/
def Ctx.vecDone (x : Ctx) (r : List (BitVec 32) × BitVec 5 × Draws) (sr : Bool) : Res :=
  .doneFl (x.vecState r.2.2 sr) ({ x.ph with ctr := r.2.2.ctr }.wv x.f.d.toNat r.1) r.2.1

/-- Completion without draws or flags. -/
def Ctx.vecPlain (x : Ctx) (f : Nat → BitVec 32) : Res :=
  .done (x.vecState x.ph.draws false)
    (x.ph.wv x.f.d.toNat (mergeLanes (x.ph.active x.f) (x.ph.rv x.f.d.toNat) f))

/-- A stochastic instruction: the random fault without a granted key, the wait of R289, else its body with the key. -/
def Ctx.withRounding (x : Ctx) (sr : Bool) (body : Option (List Byte) → Res) : Res :=
  if sr then
    match x.rctxKey with
    | none => x.noKey
    | some k => if x.laneDrawWaits x.ph.rctx.lane then .wait else body (some k)
  else body none

/-- The elements of a lane in a packed type: their bit offsets (R109, R596). -/
def packed (typ : Nat) : List Nat := if typ = 1 then [0, 16] else [0]

/-- The format of a floating type code. -/
def fmtOf (typ : Nat) : Fmt := if typ = 1 then .bf16 else .fp32

/-- Element e of a lane: bits [15:0] or [31:16] of bf16, the whole of fp32. -/
def elemOf (typ sh v : Nat) : Nat := if typ = 1 then v / 2 ^ sh % 2 ^ 16 else v

/-- One lane of a packed floating instruction: each element computed on its own and rounded (R110, R111, R169). -/
def fpLane (x : Ctx) (key : Option (List Byte)) (typ : Nat) (g : Nat → Pre) (l : Nat) (d : Draws) :
    Nat × BitVec 5 × Draws :=
  (packed typ).foldl (fun st sh =>
    let (b, fl, d) := x.finishFp key (fmtOf typ) l (sh / 16) (g sh) st.2.2
    (st.1 + b * 2 ^ sh, st.2.1 ||| fl, d)) (0, 0, d)

/-- An int32 result: wrapped, or clamped with the sat flag (R115). -/
def intLane (sat : Bool) (v : Int) : Nat × BitVec 5 :=
  if sat then (unsigned 32 (clampS 32 v), if clampS 32 v = v then 0 else vfSat) else (unsigned 32 v, 0)

/-- The arithmetic operations. -/
inductive VOp where
  | add | sub | mul | fma | div | sqrt
  deriving DecidableEq, Repr

/-- An operation on exact operands in a format. -/
def VOp.fp (o : VOp) (f : Fmt) (a b c : Fp) : Pre :=
  match o with
  | .add => fpAdd f a b
  | .sub => fpAdd f a b.negate
  | .mul => fpMul f a b
  | .fma => fpFma f a b c
  | .div => fpDiv f a b
  | .sqrt => fpSqrt f a

/-- An operation on int32 operands, exactly (R115). -/
def VOp.int (o : VOp) (a b c : Int) : Int :=
  match o with
  | .add => a + b
  | .sub => a - b
  | .mul => a * b
  | .fma => a * b + c
  | _ => 0

/-- Whether the immediate's type, stochastic and saturation bits fit the operation. -/
def VOp.legal (o : VOp) (typ : Nat) (sr sat : Bool) : Bool :=
  decide (typ < 3) && !(sr && typ == 2) && !(typ == 2 && (o == .div || o == .sqrt)) &&
    !(sat && !(typ == 2 && (o == .add || o == .sub || o == .mul)))

/-- The arithmetic instructions' effect (R109-R115). -/
def arithRes (o : VOp) (x : Ctx) : Res :=
  let imm := x.f.imm.toNat
  let typ := imm % 4
  let sr := bitAt imm 2
  let sat := bitAt imm 3
  let a := x.ph.rv x.f.a.toNat
  let b := x.ph.rv x.f.b.toNat
  let c := x.ph.rv x.f.c.toNat
  if !o.legal typ sr sat then .illegal
  else x.withRounding sr fun key =>
    let lane := fun l d =>
      let va := (a.getD l 0).toNat
      let vb := (b.getD l 0).toNat
      let vc := (c.getD l 0).toNat
      if typ = 2 then
        let (v, fl) := intLane sat (o.int (signed 32 va) (signed 32 vb) (signed 32 vc))
        (v, fl, d)
      else
        let dec := fun sh v => Fp.decode (fmtOf typ) (elemOf typ sh v)
        fpLane x key typ (fun sh => o.fp (fmtOf typ) (dec sh va) (dec sh vb) (dec sh vc)) l d
    x.vecDone (runLanes (x.ph.active x.f) (x.ph.rv x.f.d.toNat) lane x.ph.draws) sr

/-- The fields of a two-operand arithmetic instruction. -/
def use2 : Use := { d := true, a := true, b := true, imm := 0xF, lanewise := true }

/-- VADD. -/
def execVadd (t p : Nat) (f : Fields) (s : State) : Host.Outcome State Fault Refusal :=
  issue 0x30 use2 t p f (arithRes .add) s

/-- VSUB. -/
def execVsub (t p : Nat) (f : Fields) (s : State) : Host.Outcome State Fault Refusal :=
  issue 0x31 use2 t p f (arithRes .sub) s

/-- VMUL. -/
def execVmul (t p : Nat) (f : Fields) (s : State) : Host.Outcome State Fault Refusal :=
  issue 0x32 use2 t p f (arithRes .mul) s

/-- VFMA. -/
def execVfma (t p : Nat) (f : Fields) (s : State) : Host.Outcome State Fault Refusal :=
  issue 0x33 { use2 with c := true } t p f (arithRes .fma) s

/-- VDIV. -/
def execVdiv (t p : Nat) (f : Fields) (s : State) : Host.Outcome State Fault Refusal :=
  issue 0x34 use2 t p f (arithRes .div) s

/-- VSQRT. -/
def execVsqrt (t p : Nat) (f : Fields) (s : State) : Host.Outcome State Fault Refusal :=
  issue 0x35 { use2 with b := false } t p f (arithRes .sqrt) s

/-- Minimum and maximum (R114); int32 signed. -/
def minMaxRes (wantMax : Bool) (x : Ctx) : Res :=
  let typ := x.f.imm.toNat % 4
  let a := x.ph.rv x.f.a.toNat
  let b := x.ph.rv x.f.b.toNat
  if typ = 3 then .illegal
  else x.vecPlain fun l =>
    let va := (a.getD l 0)
    let vb := (b.getD l 0)
    if typ = 2 then (if va.slt vb == wantMax then vb else va)
    else BitVec.ofNat 32 ((packed typ).foldl (fun r sh =>
      r + fpMinMax (fmtOf typ) wantMax (elemOf typ sh va.toNat) (elemOf typ sh vb.toNat) * 2 ^ sh) 0)

/-- VMIN. -/
def execVmin (t p : Nat) (f : Fields) (s : State) : Host.Outcome State Fault Refusal :=
  issue 0x36 { use2 with imm := 0x3 } t p f (minMaxRes false) s

/-- VMAX. -/
def execVmax (t p : Nat) (f : Fields) (s : State) : Host.Outcome State Fault Refusal :=
  issue 0x37 { use2 with imm := 0x3 } t p f (minMaxRes true) s

/-- One lane's compare; bf16 from bits [15:0] (R114, R596). -/
def cmpLane (typ code : Nat) (a b : BitVec 32) : Bool :=
  if typ = 2 then cmpCode code (compare a.toInt b.toInt)
  else fpCmp code (Fp.decode (fmtOf typ) (elemOf typ 0 a.toNat)) (Fp.decode (fmtOf typ) (elemOf typ 0 b.toNat))

/-- VCMP's effect: inactive bits unchanged. -/
def vcmpRes (x : Ctx) : Res :=
  let typ := x.f.imm.toNat % 4
  let code := x.f.imm.toNat / 16 % 8
  let act := x.ph.active x.f
  if typ = 3 || 5 < code || 8 ≤ x.f.d.toNat then .illegal
  else
    let old := x.ph.rp x.f.d.toNat
    let r := BitVec.ofNat 64 (ofBits 64 fun l =>
      if act.getLsbD l then cmpLane typ code (x.ph.lane x.f.a.toNat l) (x.ph.lane x.f.b.toNat l) else old.getLsbD l)
    .done (x.vecState x.ph.draws false) (x.ph.wp x.f.d.toNat r)

/-- VCMP. -/
def execVcmp (t p : Nat) (f : Fields) (s : State) : Host.Outcome State Fault Refusal :=
  issue 0x38 { use2 with imm := 0x73 } t p f vcmpRes s

/-- VSEL. -/
def execVsel (t p : Nat) (f : Fields) (s : State) : Host.Outcome State Fault Refusal :=
  issue 0x39 { use2 with c := true, imm := 0 } t p f (fun x =>
    if 8 ≤ x.f.c.toNat then .illegal
    else x.vecPlain fun l =>
      if (x.ph.rp x.f.c.toNat).getLsbD l then x.ph.lane x.f.a.toNat l else x.ph.lane x.f.b.toNat l) s

/-- The conversions the table of R116 lists: 0 fp32, 1 bf16, 2 int32, 3 int8, 4 int4. -/
def cvtOk (frm dest : Nat) : Bool :=
  match frm, dest with
  | 0, t => t == 1 || t == 2 || t == 3 || t == 4
  | 1, t => t == 0 || t == 2 || t == 3 || t == 4
  | 2, t => t == 0 || t == 1
  | 3, t => t == 0 || t == 1
  | 4, t => t == 0 || t == 1
  | _, _ => false

/-- The width of an integer type code. -/
def intBits (code : Nat) : Nat :=
  match code with
  | 3 => 8
  | 4 => 4
  | _ => 32

/-- One lane of VCVT (R116, R117). -/
def cvtLane (x : Ctx) (key : Option (List Byte)) (frm dest : Nat) (sc : Int) (l : Nat) (v : Nat) (d : Draws) :
    Nat × BitVec 5 × Draws :=
  let src : Fp := if frm < 2 then Fp.decode (fmtOf frm) (elemOf frm 0 v)
    else
      let i := signed (intBits frm) v
      .fin (decide (i < 0)) i.natAbs 0
  if dest < 2 then x.finishFp key (fmtOf dest) l 0 (fpScale (fmtOf dest) sc src) d
  else
    match src with
    | .nan => (0, vfInvalid, d)
    | .inf n => (unsigned 32 (if n then -(2 ^ (intBits dest - 1) : Nat) else (2 ^ (intBits dest - 1) : Nat) - 1), vfSat, d)
    | .fin n m e =>
      let (q, d) := x.roundUnits key 0 l { neg := n, m := m, e := e + sc, more := false } d
      let i : Int := if n then -q else q
      (unsigned 32 (clampS (intBits dest) i), if clampS (intBits dest) i = i then 0 else vfSat, d)

/-- VCVT's effect. -/
def vcvtRes (x : Ctx) : Res :=
  let imm := x.f.imm.toNat
  let frm := imm % 16
  let dest := imm / 16 % 16
  let sr := bitAt imm 8
  let sc := signed 8 (imm / 2 ^ 16)
  if !cvtOk frm dest then .illegal
  else x.withRounding sr fun key =>
    x.vecDone (runLanes (x.ph.active x.f) (x.ph.rv x.f.d.toNat)
      (fun l d => cvtLane x key frm dest sc l (x.ph.lane x.f.a.toNat l).toNat d) x.ph.draws) sr

/-- VCVT. -/
def execVcvt (t p : Nat) (f : Fields) (s : State) : Host.Outcome State Fault Refusal :=
  issue 0x3A { d := true, a := true, imm := 0x00FF01FF, lanewise := true } t p f vcvtRes s

/-- A block's exponent from its elements: none for a NaN block (R118). -/
def blockExp (bx4 : Bool) (l : List Fp) : Option Int :=
  l.foldl (fun acc v =>
    match acc, v with
    | none, _ => none
    | _, .nan => none
    | _, .inf _ => none
    | some e, .fin _ m ex =>
      if m = 0 then some e
      else some (max e (min 127 (ex + (Nat.log2 m : Nat) - (if bx4 then 2 else 6))))) (some (-127))

/-- Whether the clamp of a block's exponent to −127 acts: a finite block whose largest magnitude is not 0 and would give a
lower one (R118). The clamp sets sat, as every clamp of its chapter but that of R119 does (R129; log entry 91, DEDUCED). -/
def blockLow (bx4 : Bool) (l : List Fp) : Bool :=
  (blockExp bx4 l).isSome && l.any (fun v => match v with
    | .fin _ m _ => m != 0
    | _ => false) &&
    l.all fun v => match v with
      | .fin _ m ex => m == 0 || decide (ex + (Nat.log2 m : Nat) - (if bx4 then 2 else 6) < -127)
      | _ => true

/-- Mantissas packed into bytes: a byte each, or two to a byte, the even element low (R84). -/
def packMant (bx4 : Bool) (l : List Int) : List Byte :=
  if bx4 then tab 32 fun k => BitVec.ofNat 8 (unsigned 4 (l.getD (2 * k) 0) + 16 * unsigned 4 (l.getD (2 * k + 1) 0))
  else l.map fun v => BitVec.ofNat 8 (unsigned 8 v)

/-- VBX's effect (R118-R120, R129). -/
def vbxRes (x : Ctx) : Res :=
  let imm := x.f.imm.toNat
  let bx4 := bitAt imm 0
  let typ := b2n (bitAt imm 1)
  let sr := bitAt imm 2
  let act := x.ph.active x.f
  let am := (x.ph.rs x.f.b).toNat
  let ae := (x.ph.rs x.f.c).toNat
  let nm := if bx4 then 32 else 64
  let el := tab 64 fun l =>
    if act.getLsbD l then Fp.decode (fmtOf typ) (elemOf typ 0 (x.ph.lane x.f.a.toNat l).toNat) else .fin false 0 0
  let exps := [blockExp bx4 (el.take 32), blockExp bx4 (el.drop 32)]
  x.withRounding sr fun key =>
    if !x.sramOk am nm 1 then .fault 3 (x.ph.rs x.f.b) none
    else if !x.sramOk ae 2 1 then .fault 3 (x.ph.rs x.f.c) none
    else
      let (ms, d) := (List.range 64).foldl (fun (st : List Int × Draws) l =>
        match exps.getD (l / 32) none, el.getD l .nan with
        | some e, .fin n m ex =>
          let (q, d) := x.roundUnits key 0 l { neg := n, m := m, e := ex - e, more := false } st.2
          (st.1 ++ [clampS (if bx4 then 4 else 8) (if n then -q else q)], d)
        | _, _ => (st.1 ++ [0], st.2)) ([], x.ph.draws)
      let eb := exps.map fun e => BitVec.ofNat 8 (unsigned 8 (e.getD (-128)))
      let s := ((x.vecState d sr).store x.cr.members am (packMant bx4 ms)).store x.cr.members ae eb
      let s := (s.tallySram x am nm true).tallySram x ae 2 true
      let big := (exps.filterMap id).foldl max (-127)
      .doneFl s ({ x.ph with ctr := d.ctr }.ws x.f.d (BitVec.ofInt 64 big))
        (if blockLow bx4 (el.take 32) || blockLow bx4 (el.drop 32) then vfSat else 0)

/-- VBX. -/
def execVbx (t p : Nat) (f : Fields) (s : State) : Host.Outcome State Fault Refusal :=
  issue 0x3B { d := true, a := true, b := true, c := true, imm := 0x7, lanewise := true } t p f vbxRes s

/-- Mantissas unpacked from bytes (R84). -/
def unpackMant (bx4 : Bool) (l : List Byte) (i : Nat) : Int :=
  if bx4 then signed 4 (byteAt l (i / 2) / 16 ^ (i % 2)) else signed 8 (byteAt l i)

/-- VUBX's effect (R116). -/
def vubxRes (x : Ctx) : Res :=
  let bx4 := bitAt x.f.imm.toNat 0
  let typ := b2n (bitAt x.f.imm.toNat 1)
  let am := (x.ph.rs x.f.a).toNat
  let ae := (x.ph.rs x.f.b).toNat
  let nm := if bx4 then 32 else 64
  if !x.sramOk am nm 1 then .fault 3 (x.ph.rs x.f.a) none
  else if !x.sramOk ae 2 1 then .fault 3 (x.ph.rs x.f.b) none
  else
    let mb := x.load am nm
    let eb := x.load ae 2
    let r := runLanes (x.ph.active x.f) (x.ph.rv x.f.d.toNat) (fun l d =>
      let e := signed 8 (byteAt eb (l / 32))
      let m := unpackMant bx4 mb l
      let v : Pre := if e = -128 then .done (fpNaN (fmtOf typ)) 0
        else .value { neg := decide (m < 0), m := m.natAbs, e := e, more := false }
      x.finishFp none (fmtOf typ) l 0 v d) x.ph.draws
    .doneFl (((x.vecState r.2.2 false).tallySram x am nm false).tallySram x ae 2 false)
      (x.ph.wv x.f.d.toNat r.1) r.2.1

/-- VUBX. -/
def execVubx (t p : Nat) (f : Fields) (s : State) : Host.Outcome State Fault Refusal :=
  issue 0x3C { use2 with imm := 0x3 } t p f vubxRes s

/-- An extreme of integers with its lowest index. -/
def intExtreme (wantMax : Bool) (l : List Int) : Option (Int × Nat) :=
  (l.zipIdx).foldl (fun acc vi =>
    match acc with
    | none => some vi
    | some b => if (if wantMax then decide (b.1 < vi.1) else decide (vi.1 < b.1)) then some vi else some b) none

/-- An extreme of fp32 patterns with its lowest index; a NaN anywhere wins with the lowest index that holds one (R124). -/
def fpExtreme (wantMax : Bool) (l : List Nat) : Option (Nat × Nat) :=
  match firstIdx l fun v => Fp.decode .fp32 v == .nan with
  | some i => some (fpNaN .fp32, i)
  | none =>
    (l.zipIdx).foldl (fun acc vi =>
      match acc with
      | none => some vi
      | some b =>
        let x := Fp.decode .fp32 b.1
        let y := Fp.decode .fp32 vi.1
        if (if wantMax then fpBelow x y else fpBelow y x) then some vi else some b) none

/-- A row reduction (R121-R125): result, index and flags. -/
def reduceRow (typ red : Nat) (raw : List Nat) : BitVec 64 × BitVec 64 × BitVec 5 :=
  let none64 := BitVec.allOnes 64
  if typ = 2 then
    let v := raw.map (signed 32)
    if red = 0 then
      let t := isum v
      (BitVec.ofInt 64 (clampS 32 t), 0, if clampS 32 t = t then 0 else vfSat)
    else
      match intExtreme (red == 1) v with
      | some (r, i) => (BitVec.ofInt 64 r, BitVec.ofNat 64 i, 0)
      | none => (BitVec.ofInt 64 (if red = 1 then -(2 ^ 31 : Nat) else (2 ^ 31 : Nat) - 1), none64, 0)
  else
    let v := if typ = 1 then raw.map fun w => w % 2 ^ 16 * 2 ^ 16 else raw
    if red = 0 then
      let (r, fl) := treeSum 26 v 0
      (BitVec.ofNat 64 r, 0, fl)
    else
      match fpExtreme (red == 1) v with
      | some (r, i) => (BitVec.ofNat 64 r, BitVec.ofNat 64 i, 0)
      | none => (BitVec.ofNat 64 (fpInf .fp32 (red == 1)), none64, 0)

/-- VRED's effect (R122, R163): an int32 result is sign-extended (log entry 24, DEDUCED). -/
def vredRes (x : Ctx) : Res :=
  let imm := x.f.imm.toNat
  let typ := imm % 4
  let red := imm / 16 % 4
  let reg := bitAt imm 8
  let n := (x.ph.rs x.f.b).toNat % 2 ^ 32
  let a := x.f.a.toNat
  let addr := (x.ph.rs x.f.a).toNat
  let w := if typ = 1 then 2 else 4
  let finish := fun (s : State) (raw : List Nat) =>
    let (r, i, fl) := reduceRow typ red raw
    let ph := x.ph.ws x.f.d r
    Res.doneFl (s.tally x.t 0x18 1) (if red = 0 then ph else ph.ws x.f.c i) fl
  if typ = 3 || red = 3 || (red = 0 && x.f.c != 0) then .illegal
  else if 16777216 < n || (reg && 64 * (32 - a) < n) then .bad 14
  else if reg then finish x.s (tab n fun i => (x.ph.lane (a + i / 64) (i % 64)).toNat)
  else if n = 0 then finish x.s []
  else if !x.sramOk addr (n * w) w then .fault 3 (x.ph.rs x.f.a) none
  else finish (x.s.tallySram x addr (n * w) false) ((chunks w (x.load addr (n * w))).map leNat)

/-- VRED. -/
def execVred (t p : Nat) (f : Fields) (s : State) : Host.Outcome State Fault Refusal :=
  issue 0x3D { d := true, a := true, b := true, c := true, imm := 0x133 } t p f vredRes s

/-- VTRN's effect (R164, R165). -/
def vtrnRes (x : Ctx) : Res :=
  let typ := x.f.imm.toNat % 4
  let sel := x.f.imm.toNat / 16 % 8
  if 1 < typ || sel = 7 then .illegal
  else
    let lane := fun l d =>
      let v := (x.ph.lane x.f.a.toNat l).toNat
      fpLane x none typ (fun sh => transcend sel (fmtOf typ) (Fp.decode (fmtOf typ) (elemOf typ sh v))) l d
    x.vecDone (runLanes (x.ph.active x.f) (x.ph.rv x.f.d.toNat) lane x.ph.draws) false

/-- VTRN. -/
def execVtrn (t p : Nat) (f : Fields) (s : State) : Host.Outcome State Fault Refusal :=
  issue 0x3E { d := true, a := true, imm := 0x73, lanewise := true } t p f vtrnRes s

/-- VMOV's effect. -/
def vmovRes (x : Ctx) : Res :=
  let imm := x.f.imm
  let k := imm.toNat % 8
  let a := x.f.a
  if k = 0 && imm.toNat < 8 then x.vecPlain fun l => x.ph.lane a.toNat l
  else if k = 1 && imm.toNat < 8 then x.vecPlain fun _ => (x.ph.rs a).setWidth 32
  else if k = 2 && imm.toNat < 8 && a = 0 then x.vecPlain fun l => BitVec.ofNat 32 (x.ph.base + l)
  else if k = 3 && imm.toNat % 256 = 3 && a = 0 then x.vecPlain fun _ => (imm.extractLsb' 8 24).signExtend 32
  else .illegal

/-- VMOV. -/
def execVmov (t p : Nat) (f : Fields) (s : State) : Host.Outcome State Fault Refusal :=
  issue 0x3F { d := true, a := true, imm := BitVec.allOnes 32, lanewise := true } t p f vmovRes s

/-- VINT's functions; counts from bits [4:0] of the second operand. -/
def vintOp (fn : Nat) (a b : BitVec 32) : BitVec 32 :=
  let n := b.toNat % 32
  match fn with
  | 0 => a &&& b
  | 1 => a ||| b
  | 2 => a ^^^ b
  | 3 => a <<< n
  | 4 => a >>> n
  | _ => a.sshiftRight n

/-- VINT. -/
def execVint (t p : Nat) (f : Fields) (s : State) : Host.Outcome State Fault Refusal :=
  issue 0x40 { use2 with imm := 0x70 } t p f (fun x =>
    let fn := x.f.imm.toNat / 16 % 8
    if 5 < fn then .illegal
    else x.vecPlain fun l => vintOp fn (x.ph.lane x.f.a.toNat l) (x.ph.lane x.f.b.toNat l)) s

/-- VPRED's effect: whole predicate registers. -/
def vpredRes (x : Ctx) : Res :=
  let k := x.f.imm.toNat
  let d := x.f.d.toNat
  let a := x.f.a.toNat
  let b := x.f.b.toNat
  let s := x.vecState x.ph.draws false
  if k < 4 then
    if 8 ≤ d || 8 ≤ a || 8 ≤ b then .illegal
    else
      let u := x.ph.rp a
      let v := x.ph.rp b
      .done s (x.ph.wp d (match k with
        | 0 => u &&& v
        | 1 => u ||| v
        | 2 => u ^^^ v
        | _ => u &&& ~~~v))
  else if k = 4 then
    if 8 ≤ d || b != 0 then .illegal else .done s (x.ph.wp d (x.ph.rs x.f.a))
  else if k = 5 then
    if 8 ≤ a || b != 0 then .illegal else .done s (x.ph.ws x.f.d (x.ph.rp a))
  else .illegal

/-- VPRED. -/
def execVpred (t p : Nat) (f : Fields) (s : State) : Host.Outcome State Fault Refusal :=
  issue 0x41 { d := true, a := true, b := true, imm := 0x7 } t p f vpredRes s

/-- VLANE: lane l takes lane (l + s[b]) mod 64 of v[a]. -/
def execVlane (t p : Nat) (f : Fields) (s : State) : Host.Outcome State Fault Refusal :=
  issue 0x42 { use2 with imm := 0 } t p f (fun x =>
    x.vecPlain fun l => x.ph.lane x.f.a.toNat ((l + (x.ph.rs x.f.b).toNat) % 64)) s

/-- VXS: one lane to a scalar, zero-extended. -/
def execVxs (t p : Nat) (f : Fields) (s : State) : Host.Outcome State Fault Refusal :=
  issue 0x43 { d := true, a := true, b := true } t p f (fun x =>
    .done (x.vecState x.ph.draws false)
      (x.ph.ws x.f.d ((x.ph.lane x.f.a.toNat ((x.ph.rs x.f.b).toNat % 64)).setWidth 64))) s

end Sys2Proof.Machine
end

