-- ==== Sys2Proof/Machine/Dispatch.lean ====
section
/-! DEFINITION. One arm per command. -/
namespace Sys2Proof.Machine

/-- The effect of a command on everything but the queue. -/
def exec (i : Instr) (s : State) : Host.Outcome State Fault Refusal :=
  match i with
  | .registerWrite off acc val => Sys2Proof.Machine.execRegisterWrite off acc val s
  | .commandFetch q data => Sys2Proof.Machine.execCommandFetch q data s
  | .submissionDoorbell off val => Sys2Proof.Machine.execSubmissionDoorbell off val s
  | .completionDoorbell off val => Sys2Proof.Machine.execCompletionDoorbell off val s
  | .queueEnable q val => Sys2Proof.Machine.execQueueEnable q val s
  | .queueDisable q val => Sys2Proof.Machine.execQueueDisable q val s
  | .completionRecordWrite id => Sys2Proof.Machine.execCompletionRecordWrite id s
  | .loadWeave id strike => Sys2Proof.Machine.execLoadWeave id strike s
  | .applyWeave id strike => Sys2Proof.Machine.execApplyWeave id strike s
  | .launch id => Sys2Proof.Machine.execLaunch id s
  | .copy id data => Sys2Proof.Machine.execCopy id data s
  | .saveCtx id => Sys2Proof.Machine.execSaveCtx id s
  | .restoreCtx id => Sys2Proof.Machine.execRestoreCtx id s
  | .sanitize id => Sys2Proof.Machine.execSanitize id s
  | .attest id => Sys2Proof.Machine.execAttest id s
  | .sessionOpen id => Sys2Proof.Machine.execSessionOpen id s
  | .sessionClose id => Sys2Proof.Machine.execSessionClose id s
  | .fwStage id readBackOk refusals => Sys2Proof.Machine.execFwStage id readBackOk refusals s
  | .fwActivate id flashOk loadOk => Sys2Proof.Machine.execFwActivate id flashOk loadOk s
  | .fwActivateAtNextStart id => Sys2Proof.Machine.execFwActivateAtNextStart id s
  | .fwConfirm id => Sys2Proof.Machine.execFwConfirm id s
  | .transcriptStart id => Sys2Proof.Machine.execTranscriptStart id s
  | .transcriptStop id => Sys2Proof.Machine.execTranscriptStop id s
  | .replay id => Sys2Proof.Machine.execReplay id s
  | .powerState id => Sys2Proof.Machine.execPowerState id s
  | .halfPowerOff id => Sys2Proof.Machine.execHalfPowerOff id s
  | .halfPowerOn id => Sys2Proof.Machine.execHalfPowerOn id s
  | .tallyCfg id => Sys2Proof.Machine.execTallyCfg id s
  | .entropyRead id fail => Sys2Proof.Machine.execEntropyRead id fail s
  | .bar2Write off data => Sys2Proof.Machine.execBar2Write off data s
  | .weaveReadback => Sys2Proof.Machine.execWeaveReadback s
  | .phraseStart t => Sys2Proof.Machine.execPhraseStart t s
  | .loadBalanceTake t => Sys2Proof.Machine.execLoadBalanceTake t s
  | .clauseRunComplete c => Sys2Proof.Machine.execClauseRunComplete c s
  | .nop t p f => Sys2Proof.Machine.execNop t p f s
  | .br t p f => Sys2Proof.Machine.execBr t p f s
  | .brz t p f => Sys2Proof.Machine.execBrz t p f s
  | .brnz t p f => Sys2Proof.Machine.execBrnz t p f s
  | .brany t p f => Sys2Proof.Machine.execBrany t p f s
  | .brall t p f => Sys2Proof.Machine.execBrall t p f s
  | .loop t p f => Sys2Proof.Machine.execLoop t p f s
  | .plaunch t p f => Sys2Proof.Machine.execPlaunch t p f s
  | .pend t p f => Sys2Proof.Machine.execPend t p f s
  | .smov t p f => Sys2Proof.Machine.execSmov t p f s
  | .smovh t p f => Sys2Proof.Machine.execSmovh t p f s
  | .salu t p f => Sys2Proof.Machine.execSalu t p f s
  | .salui t p f => Sys2Proof.Machine.execSalui t p f s
  | .srd t p f => Sys2Proof.Machine.execSrd t p f s
  | .vflags t p f => Sys2Proof.Machine.execVflags t p f s
  | .utrap t p f => Sys2Proof.Machine.execUtrap t p f s
  | .vld t p f => Sys2Proof.Machine.execVld t p f s
  | .vst t p f => Sys2Proof.Machine.execVst t p f s
  | .vldx t p f => Sys2Proof.Machine.execVldx t p f s
  | .vstx t p f => Sys2Proof.Machine.execVstx t p f s
  | .sld t p f => Sys2Proof.Machine.execSld t p f s
  | .sst t p f => Sys2Proof.Machine.execSst t p f s
  | .sldw t p f => Sys2Proof.Machine.execSldw t p f s
  | .dma t p f => Sys2Proof.Machine.execDma t p f s
  | .dmaTransferComplete t p tag => Sys2Proof.Machine.execDmaTransferComplete t p tag s
  | .dmaw t p f => Sys2Proof.Machine.execDmaw t p f s
  | .pref t p f => Sys2Proof.Machine.execPref t p f s
  | .aopen t p f => Sys2Proof.Machine.execAopen t p f s
  | .aldh t p f => Sys2Proof.Machine.execAldh t p f s
  | .heldLoadComplete t => Sys2Proof.Machine.execHeldLoadComplete t s
  | .amac t p f => Sys2Proof.Machine.execAmac t p f s
  | .adrn t p f => Sys2Proof.Machine.execAdrn t p f s
  | .gangCombine t => Sys2Proof.Machine.execGangCombine t s
  | .vadd t p f => Sys2Proof.Machine.execVadd t p f s
  | .vsub t p f => Sys2Proof.Machine.execVsub t p f s
  | .vmul t p f => Sys2Proof.Machine.execVmul t p f s
  | .vfma t p f => Sys2Proof.Machine.execVfma t p f s
  | .vdiv t p f => Sys2Proof.Machine.execVdiv t p f s
  | .vsqrt t p f => Sys2Proof.Machine.execVsqrt t p f s
  | .vmin t p f => Sys2Proof.Machine.execVmin t p f s
  | .vmax t p f => Sys2Proof.Machine.execVmax t p f s
  | .vcmp t p f => Sys2Proof.Machine.execVcmp t p f s
  | .vsel t p f => Sys2Proof.Machine.execVsel t p f s
  | .vcvt t p f => Sys2Proof.Machine.execVcvt t p f s
  | .vbx t p f => Sys2Proof.Machine.execVbx t p f s
  | .vubx t p f => Sys2Proof.Machine.execVubx t p f s
  | .vred t p f => Sys2Proof.Machine.execVred t p f s
  | .vtrn t p f => Sys2Proof.Machine.execVtrn t p f s
  | .vmov t p f => Sys2Proof.Machine.execVmov t p f s
  | .vint t p f => Sys2Proof.Machine.execVint t p f s
  | .vpred t p f => Sys2Proof.Machine.execVpred t p f s
  | .vlane t p f => Sys2Proof.Machine.execVlane t p f s
  | .vxs t p f => Sys2Proof.Machine.execVxs t p f s
  | .osel t p f => Sys2Proof.Machine.execOsel t p f s
  | .orun t p f => Sys2Proof.Machine.execOrun t p f s
  | .strandPhaseComplete t => Sys2Proof.Machine.execStrandPhaseComplete t s
  | .phaseStopRelease t => Sys2Proof.Machine.execPhaseStopRelease t s
  | .spinEvent k => Sys2Proof.Machine.execSpinEvent k s
  | .freeRunLatch t unit together => Sys2Proof.Machine.execFreeRunLatch t unit together s
  | .ord t p f => Sys2Proof.Machine.execOrd t p f s
  | .owf t p f => Sys2Proof.Machine.execOwf t p f s
  | .obank t p f => Sys2Proof.Machine.execObank t p f s
  | .obankLoadComplete t => Sys2Proof.Machine.execObankLoadComplete t s
  | .oswap t p f => Sys2Proof.Machine.execOswap t p f s
  | .obias t p f => Sys2Proof.Machine.execObias t p f s
  | .oss t p f => Sys2Proof.Machine.execOss t p f s
  | .nld t p f => Sys2Proof.Machine.execNld t p f s
  | .nrd t p f => Sys2Proof.Machine.execNrd t p f s
  | .nwr t p f => Sys2Proof.Machine.execNwr t p f s
  | .rdraw t p f => Sys2Proof.Machine.execRdraw t p f s
  | .rctx t p f => Sys2Proof.Machine.execRctx t p f s
  | .rdrop t p f => Sys2Proof.Machine.execRdrop t p f s
  | .arrive t p f => Sys2Proof.Machine.execArrive t p f s
  | .stopGenerationComplete c stop => Sys2Proof.Machine.execStopGenerationComplete c stop s
  | .wait t p f => Sys2Proof.Machine.execWait t p f s
  | .stopn t p f => Sys2Proof.Machine.execStopn t p f s
  | .fsend t p f => Sys2Proof.Machine.execFsend t p f s
  | .foldGroupCombine slot node pass => Sys2Proof.Machine.execFoldGroupCombine slot node pass s
  | .foldExponentBroadcast slot => Sys2Proof.Machine.execFoldExponentBroadcast slot s
  | .frecv t p f => Sys2Proof.Machine.execFrecv t p f s
  | .atom t p f => Sys2Proof.Machine.execAtom t p f s
  | .hbmAtomic k => Sys2Proof.Machine.execHbmAtomic k s
  | .hbmAccess addr acc ev => Sys2Proof.Machine.execHbmAccess addr acc ev s
  | .hbmRefresh stack sense => Sys2Proof.Machine.execHbmRefresh stack sense s
  | .trd t p f => Sys2Proof.Machine.execTrd t p f s
  | .tmark t p f => Sys2Proof.Machine.execTmark t p f s
  | .hold t p f => Sys2Proof.Machine.execHold t p f s
  | .remoteAccess n m => Sys2Proof.Machine.execRemoteAccess n m s
  | .tjSample t tj => Sys2Proof.Machine.execTjSample t tj s
  | .telemetryRead h reading => Sys2Proof.Machine.execTelemetryRead h reading s
  | .calibrationStart t => Sys2Proof.Machine.execCalibrationStart t s
  | .calibrationComplete t m => Sys2Proof.Machine.execCalibrationComplete t m s
  | .spotCheckStart t => Sys2Proof.Machine.execSpotCheckStart t s
  | .spotCheckComplete t dev => Sys2Proof.Machine.execSpotCheckComplete t dev s
  | .calCmdStart t => Sys2Proof.Machine.execCalCmdStart t s
  | .calCmdSpot t => Sys2Proof.Machine.execCalCmdSpot t s
  | .throttleStep h => Sys2Proof.Machine.execThrottleStep h s
  | .pwrVsetWrite val => Sys2Proof.Machine.execPwrVsetWrite val s
  | .thermtrip => Sys2Proof.Machine.execThermtrip s
  | .entropyBlockComplete cell raw => Sys2Proof.Machine.execEntropyBlockComplete cell raw s
  | .healthTestFail cell test => Sys2Proof.Machine.execHealthTestFail cell test s
  | .cellRetest cell => Sys2Proof.Machine.execCellRetest cell s
  | .startupTestComplete cell bits => Sys2Proof.Machine.execStartupTestComplete cell bits s
  | .entFailPersist h => Sys2Proof.Machine.execEntFailPersist h s
  | .hopCmdRetest h => Sys2Proof.Machine.execHopCmdRetest h s
  | .hopCmdCapture h => Sys2Proof.Machine.execHopCmdCapture h s
  | .rawCaptureComplete h bits => Sys2Proof.Machine.execRawCaptureComplete h bits s
  | .tksEnable h val => Sys2Proof.Machine.execTksEnable h val s
  | .tksDisable h val => Sys2Proof.Machine.execTksDisable h val s
  | .tksKick h => Sys2Proof.Machine.execTksKick h s
  | .tksTailPoll h => Sys2Proof.Machine.execTksTailPoll h s
  | .tksRequest h => Sys2Proof.Machine.execTksRequest h s
  | .linkFrameTransmit n => Sys2Proof.Machine.execLinkFrameTransmit n s
  | .linkGroupReceive n g => Sys2Proof.Machine.execLinkGroupReceive n g s
  | .linkNak n fsn => Sys2Proof.Machine.execLinkNak n fsn s
  | .linkTransit n => Sys2Proof.Machine.execLinkTransit n s
  | .linkTrainingComplete n laneBad => Sys2Proof.Machine.execLinkTrainingComplete n laneBad s
  | .linkHello n hello => Sys2Proof.Machine.execLinkHello n hello s
  | .linkKeySetupMessage n m => Sys2Proof.Machine.execLinkKeySetupMessage n m s
  | .linkKeySetupRetry n => Sys2Proof.Machine.execLinkKeySetupRetry n s
  | .glkCmdRekey n => Sys2Proof.Machine.execGlkCmdRekey n s
  | .glkCmdRetrain n => Sys2Proof.Machine.execGlkCmdRetrain n s
  | .glkCmdWake n => Sys2Proof.Machine.execGlkCmdWake n s
  | .wakePatternTimeout n => Sys2Proof.Machine.execWakePatternTimeout n s
  | .linkDown n => Sys2Proof.Machine.execLinkDown n s
  | .linkHoldExpire n => Sys2Proof.Machine.execLinkHoldExpire n s
  | .linkSwitchOff n => Sys2Proof.Machine.execLinkSwitchOff n s
  | .linkWakeDetect n w cool => Sys2Proof.Machine.execLinkWakeDetect n w cool s
  | .fwForwardReceive n image readBackOk => Sys2Proof.Machine.execFwForwardReceive n image readBackOk s
  | .fwForwardAbandon k => Sys2Proof.Machine.execFwForwardAbandon k s
  | .fwRecovGo => Sys2Proof.Machine.execFwRecovGo s
  | .fwRecovFinish readBackOk => Sys2Proof.Machine.execFwRecovFinish readBackOk s
  | .bootReadyTimeout => Sys2Proof.Machine.execBootReadyTimeout s
  | .dbgChallenge => Sys2Proof.Machine.execDbgChallenge s
  | .dbgSubmit => Sys2Proof.Machine.execDbgSubmit s
  | .dbgLock => Sys2Proof.Machine.execDbgLock s
  | .dbgNonceExpire => Sys2Proof.Machine.execDbgNonceExpire s
  | .almPolicyWrite val => Sys2Proof.Machine.execAlmPolicyWrite val s
  | .almCfgWrite val => Sys2Proof.Machine.execAlmCfgWrite val s
  | .meshBreach present => Sys2Proof.Machine.execMeshBreach present s
  | .temperatureOutOfRange temp => Sys2Proof.Machine.execTemperatureOutOfRange temp s
  | .backsideLight present => Sys2Proof.Machine.execBacksideLight present s
  | .vigilWake mesh temp => Sys2Proof.Machine.execVigilWake mesh temp s
  | .plaitWake addr cool => Sys2Proof.Machine.execPlaitWake addr cool s
  | .coldReset b => Sys2Proof.Machine.execColdReset b s
  | .resetNAssert => Sys2Proof.Machine.execResetNAssert s
  | .fundamentalReset => Sys2Proof.Machine.execFundamentalReset s
  | .hostWarmReset val flr => Sys2Proof.Machine.execHostWarmReset val flr s
  | .stbyResetRelease plAddr bootMode => Sys2Proof.Machine.execStbyResetRelease plAddr bootMode s
  | .plaitTransaction bytes => Sys2Proof.Machine.execPlaitTransaction bytes s
  | .plaitResponseAbandon => Sys2Proof.Machine.execPlaitResponseAbandon s
  | .mailboxRequest h viaTap => Sys2Proof.Machine.execMailboxRequest h viaTap s
  | .tapDbgAccess dr => Sys2Proof.Machine.execTapDbgAccess dr s
  | .tapDbgCmd v => Sys2Proof.Machine.execTapDbgCmd v s
  | .dbgCtlHold t val => Sys2Proof.Machine.execDbgCtlHold t val s
  | .dbgCtlStep t val => Sys2Proof.Machine.execDbgCtlStep t val s
  | .stewardHold h val => Sys2Proof.Machine.execStewardHold h val s
  | .stewardStep h => Sys2Proof.Machine.execStewardStep h s
  | .tlyClear => Sys2Proof.Machine.execTlyClear s
  | .tileTallyClear t => Sys2Proof.Machine.execTileTallyClear t s
  | .tlyDumpNow => Sys2Proof.Machine.execTlyDumpNow s
  | .tallyDump => Sys2Proof.Machine.execTallyDump s
  | .stbyResetAssert => Sys2Proof.Machine.execStbyResetAssert s
  | .linkSignalDetect n => Sys2Proof.Machine.execLinkSignalDetect n s
  | .failedBootRestart => Sys2Proof.Machine.execFailedBootRestart s

end Sys2Proof.Machine
end

