-- ==== Sys2Proof/Safety.lean ====
section
/-! DEFINITION. The terms in which the statements speak: when an instruction runs, what a register-only instruction leaves
alone, and when a state is well formed. -/
namespace Sys2Proof.Machine

/-- An instruction with opcode op and fields f, of phrase p on tile t, executes at s: it can issue (R131), no breakpoint holds
it (R530), and its fields are legal (R155, R156). x is what it runs on. -/
def Runs (op : BitVec 8) (u : Use) (s : State) (t p : Nat) (f : Fields) (x : Ctx) : Prop :=
  s.issuable t p op f = some x ∧ bpHit x.T p x.ph.pc = none ∧ u.legal f = true

/-- A command that the chief steward has started and not finished: record c, opcode op. -/
def Waits (s : State) (id op : Nat) (c : Started) : Prop := s.cmd id = some c ∧ c.opcode = op ∧ c.fin = none

/-- A command that the chief steward may carry on now: it waits, and no SANITIZE fetched before it does (R471). -/
def Takes (s : State) (id op : Nat) (c : Started) : Prop :=
  Waits s id op c ∧ s.chiefRuns = true ∧ s.afterSanitize id = false

/-- A command that has finished with a status and its details, its record not yet written. -/
def Finished (s : State) (id st d0 d1 d2 : Nat) : Prop :=
  ∃ c, s.cmd id = some c ∧ c.fin = some { status := st, detail0 := BitVec.ofNat 64 d0, detail1 := BitVec.ofNat 64 d1,
                                          detail2 := BitVec.ofNat 64 d2 }

/-- The slot records of a firmware block written anew after those of another: a complete copy with the next sequence number,
which a boot trusts, beside the copy trusted before (R548). -/
def Recorded (f g : Fw) : Prop :=
  g.latest = some {
    seq := (f.latest.map (·.seq)).getD 0 + 1, state := g.state, pend := g.pend, activeSlot := g.activeSlot,
    attempts := g.attempts, meta0 := g.slot0.held, meta1 := g.slot1.held } ∧
  ∀ r, f.latest = some r → g.copy0 = some r ∨ g.copy1 = some r

/-- The plait bus at rest: the spacer, no transaction being received or answered (R514, R516). -/
def PlaitIdle (p : Plait) : Prop :=
  p.d0 = false ∧ p.d1 = false ∧ p.inTxn = false ∧ p.response = []

/-- The phases that a master drives for the bytes of a transaction: each symbol raised and returned to the spacer, the bits
between two marks, each byte from its most significant bit (R514-R516). -/
def masterSends (b : List Byte) : List PlaitEv :=
  let mark := [PlaitEv.rails true true, PlaitEv.rails false false]
  mark ++ (b.flatMap fun x => (List.range 8).flatMap fun i =>
    [PlaitEv.rails (!x.getLsbD (7 - i)) (x.getLsbD (7 - i)), PlaitEv.rails false false]) ++ mark

/-- A response of these bytes that has begun with its mark (R516). -/
def Answers (p : Plait) (l : List Byte) : Prop :=
  p.d0 = true ∧ p.d1 = true ∧ p.ack = false ∧
    p.response = .mark :: (l.flatMap fun x => tab 8 fun i => PlSymbol.bit (x.getLsbD (7 - i))) ++ [.mark]

/-- What an instruction that names registers only leaves alone: everything outside its tile but the clause's record, debug
holds and tallies; and on its tile everything but its own phrase, the fault registers, the debug and tally registers, the last
issue and the generator's counters. -/
structure RegFrame (s s' : State) (t p : Nat) : Prop where
  whole : s' = { s with tiles := s'.tiles, clauses := s'.clauses }
  others : ∀ u, u ≠ t → s'.tile u = { s.tile u with dbg := (s'.tile u).dbg, cnt := (s'.tile u).cnt }
  tile : s'.tile t = { s.tile t with
    slots := (s'.tile t).slots, fault := (s'.tile t).fault, dbg := (s'.tile t).dbg, cnt := (s'.tile t).cnt
    lastIssue := (s'.tile t).lastIssue, pgBlocks := (s'.tile t).pgBlocks, lwrap := (s'.tile t).lwrap }
  slots : ∀ q, q ≠ p → s'.phraseAt t q = s.phraseAt t q

/-- The phrase after an instruction that writes no register but v[d], its active lanes to g: everything else of it stays. -/
def LanesAre (x : Ctx) (ph' : Phrase) (g : Nat → BitVec 32) : Prop :=
  ph' = { x.ph.advance with v := ph'.v } ∧ (∀ i, i ≠ x.f.d.toNat → ph'.rv i = x.ph.rv i) ∧
    ∀ l, l < 64 → ph'.lane x.f.d.toNat l = if (x.ph.active x.f).getLsbD l then g l else x.ph.lane x.f.d.toNat l

/-- The phrase after an instruction that writes the active lanes of v[d] to g and may raise flags: every other register stays. -/
def LanesFlagged (x : Ctx) (ph' : Phrase) (g : Nat → BitVec 32) : Prop :=
  ph' = { x.ph.advance with v := ph'.v, vflags := ph'.vflags } ∧ x.ph.vflags &&& ph'.vflags = x.ph.vflags ∧
    (∀ i, i ≠ x.f.d.toNat → ph'.rv i = x.ph.rv i) ∧
    ∀ l, l < 64 → ph'.lane x.f.d.toNat l = if (x.ph.active x.f).getLsbD l then g l else x.ph.lane x.f.d.toNat l

/-- An operation's result to nearest, ties to even. -/
def nearest (fmt : Fmt) : Pre → BitVec 32
  | .done b _ => BitVec.ofNat 32 b
  | .value e => BitVec.ofNat 32 (e.toFp fmt none false).1

/-- One lane of a floating operation to nearest: fp32, or the two bf16 elements of the lane (R109, R596). -/
def nearestLane (typ : Nat) (g : Nat → Pre) : BitVec 32 :=
  if typ = 1 then nearest .bf16 (g 0) + (nearest .bf16 (g 16) <<< 16) else nearest .fp32 (g 0)

/-- The six arithmetic instructions: opcode, fields in use, operation, command. -/
def arithmetic : List (BitVec 8 × Use × VOp × (Nat → Nat → Fields → Instr)) :=
  [(0x30, use2, .add, .vadd), (0x31, use2, .sub, .vsub), (0x32, use2, .mul, .vmul),
   (0x33, { use2 with c := true }, .fma, .vfma), (0x34, use2, .div, .vdiv), (0x35, { use2 with b := false }, .sqrt, .vsqrt)]

/-- An instruction of a phrase: its opcode, the fields it uses, its command. -/
abbrev Form := BitVec 8 × Use × (Nat → Nat → Fields → Instr)

/-- The control, scalar and memory instructions but NOP (R155, R160). -/
def formsScalar : List Form :=
  [(0x01, { imm := BitVec.allOnes 32 }, .br), (0x02, { a := true, imm := BitVec.allOnes 32 }, .brz),
   (0x03, { a := true, imm := BitVec.allOnes 32 }, .brnz), (0x04, { imm := BitVec.allOnes 32, cond := true }, .brany),
   (0x05, { imm := BitVec.allOnes 32, cond := true }, .brall), (0x06, { a := true, imm := 0x1FFF }, .loop),
   (0x07, { a := true, b := true, imm := 0x1FFF }, .plaunch), (0x08, { d := false }, .pend),
   (0x09, { d := true, imm := BitVec.allOnes 32 }, .smov), (0x0A, { d := true, imm := BitVec.allOnes 32 }, .smovh),
   (0x0B, { d := true, a := true, b := true, imm := 0xF }, .salu),
   (0x0C, { d := true, a := true, imm := BitVec.allOnes 32 }, .salui),
   (0x0D, { d := true, imm := BitVec.allOnes 32 }, .srd), (0x0E, { d := true, imm := 0x1F }, .vflags),
   (0x0F, { imm := BitVec.allOnes 32 }, .utrap)] ++
  [(0x10, { d := true, a := true, imm := 0x3FFFFFFF, lanewise := true }, .vld),
   (0x11, { d := true, a := true, imm := 0x3FFFFFFF, lanewise := true }, .vst),
   (0x12, { d := true, a := true, b := true, imm := 0x30000000, lanewise := true }, .vldx),
   (0x13, { d := true, a := true, b := true, imm := 0x30000000, lanewise := true }, .vstx),
   (0x14, { d := true, a := true, imm := BitVec.allOnes 32 }, .sld), (0x15, { d := true, a := true, imm := BitVec.allOnes 32 }, .sst),
   (0x16, { d := true, a := true, imm := BitVec.allOnes 32 }, .sldw), (0x17, { a := true, imm := 0xF }, .dma),
   (0x18, { d := true, imm := 0xFFFF }, .dmaw), (0x19, { a := true, imm := 0xFFFF }, .pref)]

/-- The array and vector instructions (R161-R164). -/
def formsVector : List Form :=
  [(0x20, { a := true, imm := 0x7 }, .aopen), (0x21, { a := true, b := true, imm := 0x7 }, .aldh),
   (0x22, { a := true, b := true, c := true, imm := 0x3FFF }, .amac), (0x23, { a := true, b := true, imm := 0xFF03 }, .adrn)] ++
  arithmetic.map (fun e => (e.1, e.2.1, e.2.2.2)) ++
  [(0x36, { use2 with imm := 0x3 }, .vmin), (0x37, { use2 with imm := 0x3 }, .vmax), (0x38, { use2 with imm := 0x73 }, .vcmp),
   (0x39, { use2 with c := true, imm := 0 }, .vsel), (0x3A, { d := true, a := true, imm := 0x00FF01FF, lanewise := true }, .vcvt),
   (0x3B, { d := true, a := true, b := true, c := true, imm := 0x7, lanewise := true }, .vbx),
   (0x3C, { use2 with imm := 0x3 }, .vubx), (0x3D, { d := true, a := true, b := true, c := true, imm := 0x133 }, .vred),
   (0x3E, { d := true, a := true, imm := 0x73, lanewise := true }, .vtrn),
   (0x3F, { d := true, a := true, imm := BitVec.allOnes 32, lanewise := true }, .vmov),
   (0x40, { use2 with imm := 0x70 }, .vint), (0x41, { d := true, a := true, b := true, imm := 0x7 }, .vpred),
   (0x42, { use2 with imm := 0 }, .vlane), (0x43, { d := true, a := true, b := true }, .vxs)]

/-- The osier, anchor, random, stop, fold, tally and hold instructions (R166-R173). -/
def formsUnits : List Form :=
  [(0x50, { imm := 0x7 }, .osel), (0x51, { a := true, imm := 0x1F3 }, .orun), (0x52, { a := true }, .ord),
   (0x53, { a := true, b := true, imm := 0x3FF }, .owf), (0x54, { a := true }, .obank), (0x55, { d := false }, .oswap),
   (0x56, { a := true }, .obias), (0x57, { a := true }, .oss), (0x60, { a := true }, .nld), (0x61, { a := true }, .nrd),
   (0x62, { a := true }, .nwr)] ++
  [(0x70, { d := true, a := true, b := true, c := true, imm := 0x7F, lanewise := true }, .rdraw),
   (0x71, { a := true, b := true, c := true, imm := 0x1F }, .rctx),
   (0x72, { d := true, a := true, b := true, c := true, imm := 0xFFFFFF1F, lanewise := true }, .rdrop),
   (0x80, { imm := 0xF }, .arrive), (0x81, { imm := 0xF }, .wait), (0x82, { a := true, imm := 0xF }, .stopn),
   (0x90, { a := true, b := true, imm := 0x7FF, lanewise := true }, .fsend), (0x91, { d := true, b := true, imm := 0x3FF }, .frecv),
   (0x92, { a := true, b := true, c := true, imm := 0x7, lanewise := true }, .atom), (0xA0, { d := true, imm := 0x7F }, .trd),
   (0xA1, { imm := 0xFFFF }, .tmark), (0xB0, { imm := 0xFF }, .hold)]

/-- Every instruction of a phrase but NOP, whose command also stands for a word of an unassigned opcode (R155). -/
def forms : List Form := formsScalar ++ formsVector ++ formsUnits

/-- One byte of local HBM, as the memory's cells hold it. -/
def State.hbmByte (s : State) (a : Nat) : Byte := s.hbm.get a

/-- One byte of a tile's SRAM. -/
def State.sramByte (s : State) (u o : Nat) : Byte := (s.tile u).sram.get o

/-- The state that every step keeps: memories in their canonical form, a tile for each enabled tile with its 64 phrase slots, 32
links, 12 stacks and 16 queues. -/
def Kept (s : State) : Prop :=
  s.hbm.Wf ∧ s.tiles.length = s.nTiles ∧ (∀ T ∈ s.tiles, T.sram.Wf ∧ T.slots.length = 64) ∧ s.mboxW.window.Wf ∧
    s.mboxE.window.Wf ∧ s.links.length = 32 ∧ s.hbmStacks.length = 12 ∧ s.queues.length = 16

end Sys2Proof.Machine
end

