-- ==== Sys2Proof/Certificates/Slice0/Obligations.lean ====
section
/-! DEFINITION. The statements for the provers. Each docstring names the rules it formalises; a choice of the model is named as
such with its log entry. -/
open Sys2Proof Sys2Proof.Machine

/-! ## The queue of commands -/

/-- A step runs the command at the front of the queue on the state with the queue's rest. With nothing waiting, a period of the 100
MHz reference passes while the core runs (the model's choice: log entry 3): the interval timer advances by 10, a dump that is
still being written may end (a free bit: log entry 104), a calibration's step may go on to the next, at its bound at the latest (a
free bit: log entry 46), and beside them only counters of time and traffic change: those of the tiles, where in dedicated mode an event that counts neither time nor traffic keeps its count, and those of the rim routers (free
counts: log entries 36 and 37). -/
def Obligations.StepRunsFront : Prop :=
  (∀ (c : Instr) (r : List Instr) (s : State),
    Sys2Proof.Machine.step { s with pending := c :: r } = Sys2Proof.Machine.exec c { s with pending := r }) ∧
  (∀ s : State, s.pending = [] → s.pwr.core = .running →
    ∃ s', Sys2Proof.Machine.step s = .next s' ∧
      s' = { s with
        timer := s.timer + 10, tiles := s'.tiles, tly := { s.tly with rim := s'.tly.rim, dumping := s'.tly.dumping }
        free := s'.free } ∧
      (s'.tly.dumping = true → s.tly.dumping = true) ∧
      (∀ t k k', t < s.tiles.length → k = (s.tile t).cal → k' = { k with step := k.step + 1, stepAt := s.timer + 10 } →
        (s'.tile t = { s.tile t with cnt := (s'.tile t).cnt } ∨
          1 ≤ k.step ∧ k.step ≤ 5 ∧ s'.tile t = { s.tile t with cnt := (s'.tile t).cnt, cal := k' }) ∧
        (s.tileUp t = true → 1 ≤ k.step → k.step ≤ 5 → k.stepAt + calBound k.step ≤ s.timer + 10 → (s'.tile t).cal = k')) ∧
      (s.tly.cfg.dedicated = true → ∀ t e, e ∉ timeEvents → e ≠ 2 → e ≠ 3 → e ≠ 0x5F →
        (s'.tile t).cnt[e]? = (s.tile t).cnt[e]?)) ∧
  (∀ s : State, s.pending = [] → s.pwr.core ≠ .running → Sys2Proof.Machine.step s = .next s)

/-! ## Sequencer: control and scalar instructions (04) -/

/-- Scalar results: SMOV sign-extends imm, SMOVH replaces bits [63:32], SALU and SALUI write their function's value, SRD the special
value its selector names, VFLAGS the sticky flags, of which it clears those imm[4:0] names (R129, R142, R155). The phrase goes
on to its next instruction. The functions of SALU, each on two 64-bit operands (R155's table of control and scalar
instructions); its code 15, and a selector of SRD beyond 9, is illegal, cause 1 (R142, R155). -/
def Obligations.ScalarResults : Prop :=
  (∀ (s : State) (t p : Nat) (f : Fields) (x : Ctx),
      (Runs 0x09 { d := true, imm := BitVec.allOnes 32 } s t p f x →
        Sys2Proof.Machine.exec (.smov t p f) s =
          .next (x.retire 0x09 s (some (x.ph.ws f.d (f.imm.signExtend 64)).advance) 0)) ∧
      (Runs 0x0A { d := true, imm := BitVec.allOnes 32 } s t p f x →
        Sys2Proof.Machine.exec (.smovh t p f) s =
          .next (x.retire 0x0A s (some (x.ph.ws f.d (f.imm ++ (x.ph.rs f.d).extractLsb' 0 32)).advance) 0)) ∧
      (∀ v, Runs 0x0B { d := true, a := true, b := true, imm := 0xF } s t p f x →
        salu64 f.imm.toNat (x.ph.rs f.a) (x.ph.rs f.b) = some v →
        Sys2Proof.Machine.exec (.salu t p f) s = .next (x.retire 0x0B s (some (x.ph.ws f.d v).advance) 0)) ∧
      (∀ v, Runs 0x0C { d := true, a := true, imm := BitVec.allOnes 32 } s t p f x →
        salu64 (f.imm.extractLsb' 0 4).toNat (x.ph.rs f.a) ((f.imm.extractLsb' 4 28).signExtend 64) = some v →
        Sys2Proof.Machine.exec (.salui t p f) s = .next (x.retire 0x0C s (some (x.ph.ws f.d v).advance) 0)) ∧
      (∀ v, Runs 0x0D { d := true, imm := BitVec.allOnes 32 } s t p f x → srdValue x = some v →
        Sys2Proof.Machine.exec (.srd t p f) s =
          .next (x.retire 0x0D s (some (x.ph.ws f.d (BitVec.ofNat 64 v)).advance) 0)) ∧
      (Runs 0x0E { d := true, imm := 0x1F } s t p f x →
        Sys2Proof.Machine.exec (.vflags t p f) s =
          .next (x.retire 0x0E s (some (({ x.ph with vflags := x.ph.vflags &&& ~~~(f.imm.extractLsb' 0 5) } : Phrase).ws f.d
            (x.ph.vflags.setWidth 64)).advance) 0)) ∧
      (Runs 0x0B { d := true, a := true, b := true, imm := 0xF } s t p f x → f.imm = 15 →
        Sys2Proof.Machine.exec (.salu t p f) s = .next (x.retireFault 0x0B 1 0 none)) ∧
      (Runs 0x0C { d := true, a := true, imm := BitVec.allOnes 32 } s t p f x → f.imm.extractLsb' 0 4 = 15 →
        Sys2Proof.Machine.exec (.salui t p f) s = .next (x.retireFault 0x0C 1 0 none)) ∧
      (Runs 0x0D { d := true, imm := BitVec.allOnes 32 } s t p f x → 10 ≤ f.imm.toNat →
        Sys2Proof.Machine.exec (.srd t p f) s = .next (x.retireFault 0x0D 1 0 none))) ∧
  (∀ a b : BitVec 64,
      salu64 0 a b = some (a + b) ∧ salu64 1 a b = some (a - b) ∧ salu64 2 a b = some (a * b) ∧
      salu64 3 a b = some (a &&& b) ∧ salu64 4 a b = some (a ||| b) ∧ salu64 5 a b = some (a ^^^ b) ∧
      (∃ v, salu64 6 a b = some v ∧ ∀ i, i < 64 → v.getLsbD i = (decide (b.toNat % 64 ≤ i) && a.getLsbD (i - b.toNat % 64))) ∧
      (∃ v, salu64 7 a b = some v ∧ ∀ i, i < 64 → v.getLsbD i = a.getLsbD (i + b.toNat % 64)) ∧
      (∃ v, salu64 8 a b = some v ∧ v.toInt = a.toInt / 2 ^ (b.toNat % 64)) ∧
      (∃ v, salu64 9 a b = some v ∧ v.toInt = min a.toInt b.toInt) ∧
      (∃ v, salu64 10 a b = some v ∧ v.toInt = max a.toInt b.toInt) ∧
      (∃ v, salu64 11 a b = some v ∧ v.toNat = min a.toNat b.toNat) ∧
      (∃ v, salu64 12 a b = some v ∧ v.toNat = max a.toNat b.toNat) ∧
      salu64 13 a b = some (if a.toInt < b.toInt then 1 else 0) ∧
      salu64 14 a b = some (if a.toNat < b.toNat then 1 else 0))

/-- Branches: the target is the branch's own index plus the signed imm; within the program and, in a loop, within its body, the
phrase goes there where the condition holds and otherwise on to its next instruction (R156, R158, R159). A branch whose target
lies outside the program raises the control fault, cause 6 (R158), and so does one whose target leaves the innermost open loop
body (R159); both are checked whether or not the branch is taken (the model's reading: log entry 23). -/
def Obligations.Branches : Prop :=
  (∀ (s : State) (t p : Nat) (f : Fields) (x : Ctx) (target : Nat),
      (target : Int) = x.ph.pc + f.imm.toInt → target < x.T.imem.length →
      (∀ l, x.ph.loops.head? = some l → l.start ≤ target ∧ target ≤ l.stop) →
      (Runs 0x01 { imm := BitVec.allOnes 32 } s t p f x →
        Sys2Proof.Machine.exec (.br t p f) s = .next (x.retire 0x01 s (some { x.ph with pc := target }) 0)) ∧
      (Runs 0x02 { a := true, imm := BitVec.allOnes 32 } s t p f x →
        Sys2Proof.Machine.exec (.brz t p f) s =
          .next (x.retire 0x02 s (some (if x.ph.rs f.a = 0 then { x.ph with pc := target } else x.ph.advance)) 0)) ∧
      (Runs 0x03 { a := true, imm := BitVec.allOnes 32 } s t p f x →
        Sys2Proof.Machine.exec (.brnz t p f) s =
          .next (x.retire 0x03 s (some (if x.ph.rs f.a = 0 then x.ph.advance else { x.ph with pc := target })) 0)) ∧
      (∀ any : Bool, (any = true ↔ ∃ l, l < 64 ∧ l < x.ph.lanes ∧ (x.ph.guard f).getLsbD l = true) →
        Runs 0x04 { imm := BitVec.allOnes 32, cond := true } s t p f x →
        Sys2Proof.Machine.exec (.brany t p f) s =
          .next (x.retire 0x04 s (some (if any then { x.ph with pc := target } else x.ph.advance)) 0)) ∧
      (∀ all : Bool, (all = true ↔ ∀ l, l < 64 → l < x.ph.lanes → (x.ph.guard f).getLsbD l = true) →
        Runs 0x05 { imm := BitVec.allOnes 32, cond := true } s t p f x →
        Sys2Proof.Machine.exec (.brall t p f) s =
          .next (x.retire 0x05 s (some (if all then { x.ph with pc := target } else x.ph.advance)) 0))) ∧
  (∀ (s : State) (t p : Nat) (f : Fields) (x : Ctx),
      x.ph.pc + f.imm.toInt < 0 ∨ (x.T.imem.length : Int) ≤ x.ph.pc + f.imm.toInt ∨
        (∃ l, x.ph.loops.head? = some l ∧ (x.ph.pc + f.imm.toInt < l.start ∨ (l.stop : Int) < x.ph.pc + f.imm.toInt)) →
      (Runs 0x01 { imm := BitVec.allOnes 32 } s t p f x →
        Sys2Proof.Machine.exec (.br t p f) s = .next (x.retireFault 0x01 6 0 none)) ∧
      (Runs 0x02 { a := true, imm := BitVec.allOnes 32 } s t p f x →
        Sys2Proof.Machine.exec (.brz t p f) s = .next (x.retireFault 0x02 6 0 none)) ∧
      (Runs 0x03 { a := true, imm := BitVec.allOnes 32 } s t p f x →
        Sys2Proof.Machine.exec (.brnz t p f) s = .next (x.retireFault 0x03 6 0 none)) ∧
      (Runs 0x04 { imm := BitVec.allOnes 32, cond := true } s t p f x →
        Sys2Proof.Machine.exec (.brany t p f) s = .next (x.retireFault 0x04 6 0 none)) ∧
      (Runs 0x05 { imm := BitVec.allOnes 32, cond := true } s t p f x →
        Sys2Proof.Machine.exec (.brall t p f) s = .next (x.retireFault 0x05 6 0 none)))

/-- LOOP of a body within the program and within the body around it, PLAUNCH of work that its queue takes, PEND of a phrase with
nothing outstanding and no open output tile, PREF and NOP (R134, R135, R138, R144, R159). A PLAUNCH of 64 j + r threads makes
one item of 64 threads for each j and one of the r left: items cover the threads in order, each starts at the entry index with
s16 to s31 of the launching phrase (R134). A LOOP of no or more than 4096 instructions is illegal, cause 1; one that leaves the
program or the body around it, or nests five deep, and a PEND of a phrase that owns the open output tile, raise the control fault,
cause 6 (R138, R155, R159). A PLAUNCH of no thread has no effect; one of too many threads, of reserved IDs or outside the program
raises the launch fault, cause 7; one whose items do not all fit waits (R134-R136). A PEND waits for what its phrase has
outstanding (R138). -/
def Obligations.ControlResults : Prop :=
  (∀ (s : State) (t p : Nat) (f : Fields) (x : Ctx),
      (Runs 0x06 { a := true, imm := 0x1FFF } s t p f x → 1 ≤ f.imm.toNat → f.imm.toNat ≤ 4096 →
        x.ph.pc + f.imm.toNat < x.T.imem.length → x.ph.loops.length < 4 →
        (∀ l, x.ph.loops.head? = some l → x.ph.pc + f.imm.toNat ≤ l.stop) →
        Sys2Proof.Machine.exec (.loop t p f) s = .next (x.retire 0x06 s (some
          (if (x.ph.rs f.a).toNat % 2 ^ 32 = 0 then ({ x.ph with pc := x.ph.pc + f.imm.toNat } : Phrase).advance
           else { x.ph with
             pc := x.ph.pc + 1
             loops := { start := x.ph.pc + 1, stop := x.ph.pc + f.imm.toNat, remaining := (x.ph.rs f.a).toNat % 2 ^ 32 } ::
               x.ph.loops })) 0)) ∧
      (Runs 0x07 { a := true, b := true, imm := 0x1FFF } s t p f x → 1 ≤ (x.ph.rs f.b).toNat → (x.ph.rs f.b).toNat ≤ 65536 →
        (x.ph.rs f.a).toNat + (x.ph.rs f.b).toNat ≤ 0xFFFE00 → f.imm.toNat < x.T.imem.length →
        x.T.wq.length + ((x.ph.rs f.b).toNat + 63) / 64 ≤ 1024 →
        ∃ s', Sys2Proof.Machine.exec (.plaunch t p f) s = .next s' ∧
          (s'.tile t).wq = x.T.wq ++ launchItems x.ph (x.ph.rs f.a).toNat (x.ph.rs f.b).toNat f.imm.toNat ∧
          s'.phraseAt t p = some x.ph.advance ∧ s'.hbm = s.hbm) ∧
      (Runs 0x08 {} s t p f x → (x.T.au.isOpen = true → x.T.au.owner ≠ p) → s.outstanding t p = false →
        ∃ s', Sys2Proof.Machine.exec (.pend t p f) s = .next s' ∧ s'.phraseAt t p = none ∧
          (∀ q, q ≠ p → s'.phraseAt t q = s.phraseAt t q) ∧ s'.hbm = s.hbm) ∧
      (Runs 0x19 { a := true, imm := 0xFFFF } s t p f x →
        Sys2Proof.Machine.exec (.pref t p f) s = .next (x.retire 0x19 (s.tally t 0x2E 1) (some x.ph.advance) 0)) ∧
      (Runs 0x00 {} s t p f x →
        Sys2Proof.Machine.exec (.nop t p f) s = .next (x.retire 0x00 s (some x.ph.advance) 0))) ∧
  (∀ (s : State) (t p : Nat) (f : Fields) (x : Ctx),
      (Runs 0x06 { a := true, imm := 0x1FFF } s t p f x →
        (f.imm = 0 ∨ 4096 < f.imm.toNat →
          Sys2Proof.Machine.exec (.loop t p f) s = .next (x.retireFault 0x06 1 0 none)) ∧
        (1 ≤ f.imm.toNat → f.imm.toNat ≤ 4096 →
          (x.T.imem.length ≤ x.ph.pc + f.imm.toNat ∨ 4 ≤ x.ph.loops.length ∨
            ∃ l, x.ph.loops.head? = some l ∧ l.stop < x.ph.pc + f.imm.toNat) →
          Sys2Proof.Machine.exec (.loop t p f) s = .next (x.retireFault 0x06 6 0 none))) ∧
      (∀ n, Runs 0x07 { a := true, b := true, imm := 0x1FFF } s t p f x → n = (x.ph.rs f.b).toNat % 2 ^ 32 →
        (n = 0 → Sys2Proof.Machine.exec (.plaunch t p f) s = .next (x.retire 0x07 s (some x.ph.advance) 0)) ∧
        (0 < n → 65536 < n ∨ 0xFFFE00 < (x.ph.rs f.a).toNat + n ∨ x.T.imem.length ≤ f.imm.toNat →
          Sys2Proof.Machine.exec (.plaunch t p f) s = .next (x.retireFault 0x07 7 0 none)) ∧
        (0 < n → n ≤ 65536 → (x.ph.rs f.a).toNat + n ≤ 0xFFFE00 → f.imm.toNat < x.T.imem.length →
          1024 < x.T.wq.length + (n + 63) / 64 → Sys2Proof.Machine.exec (.plaunch t p f) s = .next s)) ∧
      (Runs 0x08 {} s t p f x →
        (x.T.au.isOpen = true → x.T.au.owner = p →
          Sys2Proof.Machine.exec (.pend t p f) s = .next (x.retireFault 0x08 6 0 none)) ∧
        ((x.T.au.isOpen = true → x.T.au.owner ≠ p) → s.outstanding t p = true →
          Sys2Proof.Machine.exec (.pend t p f) s = .next s))) ∧
  (∀ (ph : Phrase) (base n entry j : Nat), j < (n + 63) / 64 →
      (launchItems ph base n entry).length = (n + 63) / 64 ∧
      ∃ i, (launchItems ph base n entry)[j]? = some i ∧ i.base = base + 64 * j ∧ i.lanes = min 64 (n - 64 * j) ∧
        1 ≤ i.lanes ∧ i.entry = entry ∧ i.args = ph.s.drop 16)

/-- UTRAP takes the user trap: cause 15 with detail imm recorded on its tile, and its clause frozen; where the tile has recorded a
fault since its clause's last LAUNCH, that one stays (R174, R176, R177). A faulting instruction changes nothing but the fault
register, its clause's freeze, the issue's own records and the tallies: registers, memory and every other tile stay (R174); a
random fault also erases the entry of a key slot whose tag fails (R456), which Arithmetic states. An instruction that carries a
nonzero field it does not use, a nonzero reserved immediate bit, or a guard that it may not carry, and a word of an unassigned
opcode, which the command of NOP issues (log entry 22, the model's choice), raise the illegal-instruction fault, cause 1 (R155,
R156); an instruction that cannot issue changes nothing (R34, R131, R174). -/
def Obligations.FaultsTaken : Prop :=
  (∀ (s : State) (t p : Nat) (f : Fields) (x : Ctx), Runs 0x0F { imm := BitVec.allOnes 32 } s t p f x →
      Sys2Proof.Machine.exec (.utrap t p f) s = .next (x.retireFault 0x0F 15 0 (some f.imm)) ∧
      ((s.tile t).fault.valid = false → ((x.retireFault 0x0F 15 0 (some f.imm)).tile t).fault =
        { valid := true, cause := 15, phrase := p, pc := x.ph.pc, detail := f.imm, addr := 0 }) ∧
      ((s.tile t).fault.valid = true → ((x.retireFault 0x0F 15 0 (some f.imm)).tile t).fault = (s.tile t).fault) ∧
      (∀ y, (x.retireFault 0x0F 15 0 (some f.imm)).clauseSt x.c = some y → y.frozen = true)) ∧
  (∀ (x : Ctx) (op : BitVec 8) (cause : Nat) (addr : BitVec 64) (detail : Option (BitVec 32)),
      x.s.issuable x.t x.p op x.f = some x →
      x.retireFault op cause addr detail =
        { x.s with tiles := (x.retireFault op cause addr detail).tiles, clauses := (x.retireFault op cause addr detail).clauses } ∧
      (∀ u, u ≠ x.t → (x.retireFault op cause addr detail).tile u = x.s.tile u) ∧
      (x.retireFault op cause addr detail).tile x.t =
        { x.s.tile x.t with
          fault := ((x.retireFault op cause addr detail).tile x.t).fault
          dbg := ((x.retireFault op cause addr detail).tile x.t).dbg
          cnt := ((x.retireFault op cause addr detail).tile x.t).cnt
          lastIssue := x.p } ∧
      (∀ q, (x.retireFault op cause addr detail).phraseAt x.t q = x.s.phraseAt x.t q)) ∧
  (∀ (s : State) (t p : Nat) (f : Fields) (op : BitVec 8) (u : Use) (c : Nat → Nat → Fields → Instr), (op, u, c) ∈ forms →
      (s.issuable t p op f = none → Sys2Proof.Machine.exec (c t p f) s = .next s) ∧
      ∀ x, s.issuable t p op f = some x → bpHit x.T p x.ph.pc = none →
        ((u.d = false ∧ f.d ≠ 0) ∨ (u.a = false ∧ f.a ≠ 0) ∨ (u.b = false ∧ f.b ≠ 0) ∨ (u.c = false ∧ f.c ≠ 0) ∨
          (∃ i, i < 32 ∧ u.imm.getLsbD i = false ∧ f.imm.getLsbD i = true) ∨
          (u.lanewise = false ∧ u.cond = false ∧ (f.pr ≠ 0 ∨ f.pn ≠ 0))) →
        Sys2Proof.Machine.exec (c t p f) s = .next (x.retireFault op 1 0 none)) ∧
  (∀ (s : State) (t p : Nat) (f : Fields) (op : BitVec 8) (x : Ctx), s.issuable t p op f = some x →
      bpHit x.T p x.ph.pc = none → (assignedOp op.toNat = false ∨ op = 0 ∧ f ≠ {}) →
      Sys2Proof.Machine.exec (.nop t p f) s = .next (x.retireFault op 1 0 none))

/-- What an executed instruction leaves: its phrase with the flags it raised, in its slot; beside what its own effect changed, only
the issue's records, the tallies and the clause's record of a saturation change (R129, R131, R414). A register of a phrase: s0
and p0 discard writes and read 0 and all ones; a write of another register is what a read of it returns, and changes no other
(R132). -/
def Obligations.RetireFrame : Prop :=
  (∀ (x : Ctx) (op : BitVec 8) (s' : State) (ph : Option Phrase) (fl : BitVec 5),
      x.s.issuable x.t x.p op x.f = some x → s'.tiles.length = x.s.tiles.length →
      (s'.tile x.t).slots.length = (x.s.tile x.t).slots.length →
      (x.retire op s' ph fl).phraseAt x.t x.p = ph.map (fun q => { q with vflags := q.vflags ||| fl }) ∧
      (∀ q, q ≠ x.p → (x.retire op s' ph fl).phraseAt x.t q = s'.phraseAt x.t q) ∧
      (∀ u, u ≠ x.t → (x.retire op s' ph fl).tile u = s'.tile u) ∧
      x.retire op s' ph fl = { s' with tiles := (x.retire op s' ph fl).tiles, clauses := (x.retire op s' ph fl).clauses } ∧
      (x.retire op s' ph fl).tile x.t =
        { s'.tile x.t with
          slots := ((x.retire op s' ph fl).tile x.t).slots
          dbg := ((x.retire op s' ph fl).tile x.t).dbg
          cnt := ((x.retire op s' ph fl).tile x.t).cnt
          lastIssue := x.p }) ∧
  (∀ (ph : Phrase), ph.s.length = 32 → ph.v.length = 32 → ph.p.length = 8 →
      (∀ v, ph.ws 0 v = ph ∧ ph.rs 0 = 0) ∧ (∀ v, ph.wp 0 v = ph ∧ ph.rp 0 = BitVec.allOnes 64) ∧
      (∀ (i : BitVec 5) (v : BitVec 64), i ≠ 0 → (ph.ws i v).rs i = v) ∧
      (∀ (i j : BitVec 5) (v : BitVec 64), i ≠ j → (ph.ws i v).rs j = ph.rs j) ∧
      (∀ i (v : BitVec 64), 1 ≤ i → i < 8 → (ph.wp i v).rp i = v) ∧
      (∀ i j (v : BitVec 64), i ≠ j → (ph.wp i v).rp j = ph.rp j) ∧
      (∀ i (v : List (BitVec 32)), i < 32 → (ph.wv i v).rv i = v) ∧
      (∀ i j (v : List (BitVec 32)), i ≠ j → (ph.wv i v).rv j = ph.rv j))

/-! ## Sequencer: memory (04, 10, 12) -/

/-- Loads, where no active lane faults: VLD and VLDX load each active lane and leave the others, SLD 8 bytes and SLDW 4 bytes
zero-extended, little-endian; no byte of memory changes (R146, R160, R594). A 32- or 16-bit element is zero-extended, an 8- or
4-bit one sign-extended; VLDX of 4-bit elements counts nibbles, element k in nibble k mod 2 of byte s[a] + k / 2 (R594). A byte
loaded is the one that stands in the clause's SRAM, where no fill of it awaits its DMAW: a free one else (R146; log entry 92). A
load or store of which an active lane is misaligned or ends beyond the clause's SRAM raises the memory fault, cause 3, with the
address of the first such lane, and changes no memory (R160, R174). -/
def Obligations.Loads : Prop :=
  (∀ (s : State) (t p : Nat) (f : Fields) (x : Ctx),
      (Runs 0x10 { d := true, a := true, imm := 0x3FFFFFFF, lanewise := true } s t p f x →
        x.badLane (laneBits f.imm) (x.rowLanes (laneBits f.imm)) = none → x.ph.v.length = 32 →
        ∃ s' ph', Sys2Proof.Machine.exec (.vld t p f) s = .next s' ∧ s'.phraseAt t p = some ph' ∧ ph'.pc = x.ph.advance.pc ∧
          (∀ l, l < 64 → ph'.lane f.d.toNat l =
            if (x.ph.active f).getLsbD l then
              x.loadLane (laneBits f.imm)
                { lane := l
                  addr := (x.ph.rs f.a + (f.imm.extractLsb' 0 28).signExtend 64).toNat + l * laneBits f.imm / 8
                  nib := if laneBits f.imm = 4 then l % 2 else 0 }
            else x.ph.lane f.d.toNat l) ∧
          s'.hbm = s.hbm ∧ ∀ u o, s'.sramByte u o = s.sramByte u o) ∧
      (Runs 0x12 { d := true, a := true, b := true, imm := 0x30000000, lanewise := true } s t p f x →
        x.badLane (laneBits f.imm) (x.gatherLanes (laneBits f.imm)) = none → x.ph.v.length = 32 →
        ∃ s' ph', Sys2Proof.Machine.exec (.vldx t p f) s = .next s' ∧ s'.phraseAt t p = some ph' ∧ ph'.pc = x.ph.advance.pc ∧
          (∀ l, l < 64 → (x.ph.active f).getLsbD l = true → laneBits f.imm ≠ 4 → ph'.lane f.d.toNat l =
            x.loadLane (laneBits f.imm)
              { lane := l, addr := (x.ph.rs f.a + (x.ph.lane f.b.toNat l).setWidth 64).toNat, nib := 0 }) ∧
          (∀ l, l < 64 → (x.ph.active f).getLsbD l = true → laneBits f.imm = 4 → ph'.lane f.d.toNat l =
            x.loadLane 4
              { lane := l, addr := (x.ph.rs f.a + (x.ph.lane f.b.toNat l >>> 1).setWidth 64).toNat
                nib := (x.ph.lane f.b.toNat l).toNat % 2 }) ∧
          (∀ l, l < 64 → (x.ph.active f).getLsbD l = false → ph'.lane f.d.toNat l = x.ph.lane f.d.toNat l) ∧
          s'.hbm = s.hbm ∧ ∀ u o, s'.sramByte u o = s.sramByte u o) ∧
      (Runs 0x14 { d := true, a := true, imm := BitVec.allOnes 32 } s t p f x → x.sramOk x.scalarAddr 8 8 = true →
        Sys2Proof.Machine.exec (.sld t p f) s =
          .next (x.retire 0x14 (s.tallySram x x.scalarAddr 8 false)
            (some (x.ph.ws f.d (BitVec.ofNat 64 (leNat (x.load x.scalarAddr 8)))).advance) 0)) ∧
      (Runs 0x16 { d := true, a := true, imm := BitVec.allOnes 32 } s t p f x → x.sramOk x.scalarAddr 4 4 = true →
        Sys2Proof.Machine.exec (.sldw t p f) s =
          .next (x.retire 0x16 (s.tallySram x x.scalarAddr 4 false)
            (some (x.ph.ws f.d (BitVec.ofNat 64 (leNat (x.load x.scalarAddr 4)))).advance) 0))) ∧
  (∀ (x : Ctx) (e : LaneAt),
      x.loadLane 32 e = BitVec.ofNat 32 (leNat (x.load e.addr 4)) ∧ x.loadLane 16 e = BitVec.ofNat 32 (leNat (x.load e.addr 2)) ∧
      x.loadLane 8 e = BitVec.ofInt 32 (signed 8 (leNat (x.load e.addr 1))) ∧
      x.loadLane 4 e = BitVec.ofInt 32 (signed 4 (leNat (x.load e.addr 1) / 16 ^ e.nib))) ∧
  (∀ (x : Ctx) (a n o : Nat), (∀ u, (x.s.tile u).sram.Wf) → o < n →
      (x.load a n)[o]? =
        some ((x.s.openByte x.cr.members (x.cr.members.getD ((a + o) / sramSize) 0) ((a + o) % sramSize)).getD
          (x.s.sramByte (x.cr.members.getD ((a + o) / sramSize) 0) ((a + o) % sramSize)))) ∧
  (∀ (s : State) (t p : Nat) (f : Fields) (x : Ctx) (e : LaneAt),
      (Runs 0x10 { d := true, a := true, imm := 0x3FFFFFFF, lanewise := true } s t p f x →
        x.badLane (laneBits f.imm) (x.rowLanes (laneBits f.imm)) = some e →
        Sys2Proof.Machine.exec (.vld t p f) s = .next (x.retireFault 0x10 3 (BitVec.ofNat 64 e.addr) none)) ∧
      (Runs 0x11 { d := true, a := true, imm := 0x3FFFFFFF, lanewise := true } s t p f x →
        x.badLane (laneBits f.imm) (x.rowLanes (laneBits f.imm)) = some e →
        Sys2Proof.Machine.exec (.vst t p f) s = .next (x.retireFault 0x11 3 (BitVec.ofNat 64 e.addr) none)) ∧
      (Runs 0x12 { d := true, a := true, b := true, imm := 0x30000000, lanewise := true } s t p f x →
        x.badLane (laneBits f.imm) (x.gatherLanes (laneBits f.imm)) = some e →
        Sys2Proof.Machine.exec (.vldx t p f) s = .next (x.retireFault 0x12 3 (BitVec.ofNat 64 e.addr) none)) ∧
      (Runs 0x13 { d := true, a := true, b := true, imm := 0x30000000, lanewise := true } s t p f x →
        x.badLane (laneBits f.imm) (x.gatherLanes (laneBits f.imm)) = some e →
        Sys2Proof.Machine.exec (.vstx t p f) s = .next (x.retireFault 0x13 3 (BitVec.ofNat 64 e.addr) none)) ∧
      (Runs 0x14 { d := true, a := true, imm := BitVec.allOnes 32 } s t p f x →
        (x.scalarAddr % 8 ≠ 0 ∨ x.cr.members.length * sramSize < x.scalarAddr + 8) →
        Sys2Proof.Machine.exec (.sld t p f) s = .next (x.retireFault 0x14 3 (BitVec.ofNat 64 x.scalarAddr) none)) ∧
      (Runs 0x15 { d := true, a := true, imm := BitVec.allOnes 32 } s t p f x →
        (x.scalarAddr % 8 ≠ 0 ∨ x.cr.members.length * sramSize < x.scalarAddr + 8) →
        Sys2Proof.Machine.exec (.sst t p f) s = .next (x.retireFault 0x15 3 (BitVec.ofNat 64 x.scalarAddr) none)) ∧
      (Runs 0x16 { d := true, a := true, imm := BitVec.allOnes 32 } s t p f x →
        (x.scalarAddr % 4 ≠ 0 ∨ x.cr.members.length * sramSize < x.scalarAddr + 4) →
        Sys2Proof.Machine.exec (.sldw t p f) s = .next (x.retireFault 0x16 3 (BitVec.ofNat 64 x.scalarAddr) none))) ∧
  (∀ (x : Ctx) (bits : Nat) (l : List LaneAt) (e : LaneAt), x.badLane bits l = some e →
      e ∈ l ∧ (e.addr % elemBytes bits ≠ 0 ∨ x.cr.members.length * sramSize < e.addr + elemBytes bits))

/-- Stores, where no active lane faults: VST and VSTX store their active lanes in ascending order, SST the 8 bytes of s[d] (R146,
R147, R160, R594): each byte, or nibble, of an element holds its lane's value, where no later active lane stores there too. A store
changes no byte of memory outside the elements it stores to: an element of lane l lies at s[a] +
offset + l n / 8 for VST and at s[a] + v[b][l] for VSTX, in whole bytes; HBM and every tile outside the clause keep every byte
(R146, R160, R594). -/
def Obligations.Stores : Prop :=
  (∀ (s : State) (t p : Nat) (f : Fields) (x : Ctx),
      (Runs 0x11 { d := true, a := true, imm := 0x3FFFFFFF, lanewise := true } s t p f x →
        x.badLane (laneBits f.imm) (x.rowLanes (laneBits f.imm)) = none →
        Sys2Proof.Machine.exec (.vst t p f) s =
          .next (x.retire 0x11 ((s.storeLanes x (laneBits f.imm) (x.rowLanes (laneBits f.imm))).tallyRow x (laneBits f.imm)
            (x.rowLanes (laneBits f.imm)) true) (some x.ph.advance) 0)) ∧
      (Runs 0x13 { d := true, a := true, b := true, imm := 0x30000000, lanewise := true } s t p f x →
        x.badLane (laneBits f.imm) (x.gatherLanes (laneBits f.imm)) = none →
        Sys2Proof.Machine.exec (.vstx t p f) s =
          .next (x.retire 0x13 ((s.storeLanes x (laneBits f.imm) (x.gatherLanes (laneBits f.imm))).tallyLanes x (laneBits f.imm)
            (x.gatherLanes (laneBits f.imm)) true) (some x.ph.advance) 0)) ∧
      (Runs 0x15 { d := true, a := true, imm := BitVec.allOnes 32 } s t p f x → x.sramOk x.scalarAddr 8 8 = true →
        x.cr.members.getD (x.scalarAddr / sramSize) 0 < s.tiles.length →
        ∃ s', Sys2Proof.Machine.exec (.sst t p f) s = .next s' ∧ s'.phraseAt t p = some x.ph.advance ∧ s'.hbm = s.hbm ∧
          ∀ u o, s'.sramByte u o =
            if u = x.cr.members.getD (x.scalarAddr / sramSize) 0 ∧ x.scalarAddr % sramSize ≤ o ∧ o < x.scalarAddr % sramSize + 8
            then BitVec.ofNat 8 ((x.ph.rs f.d).toNat / 256 ^ (o - x.scalarAddr % sramSize))
            else s.sramByte u o)) ∧
  (∀ (s s' : State) (t p : Nat) (f : Fields) (x : Ctx),
      (Runs 0x11 { d := true, a := true, imm := 0x3FFFFFFF, lanewise := true } s t p f x →
        Sys2Proof.Machine.exec (.vst t p f) s = .next s' → s'.hbm = s.hbm ∧
        ∀ u o, (∀ e ∈ x.rowLanes (laneBits f.imm), ∀ i, i < elemBytes (laneBits f.imm) →
            ¬(x.cr.members.getD ((e.addr + i) / sramSize) 0 = u ∧ (e.addr + i) % sramSize = o)) →
          s'.sramByte u o = s.sramByte u o) ∧
      (Runs 0x13 { d := true, a := true, b := true, imm := 0x30000000, lanewise := true } s t p f x →
        Sys2Proof.Machine.exec (.vstx t p f) s = .next s' → s'.hbm = s.hbm ∧
        ∀ u o, (∀ e ∈ x.gatherLanes (laneBits f.imm), ∀ i, i < elemBytes (laneBits f.imm) →
            ¬(x.cr.members.getD ((e.addr + i) / sramSize) 0 = u ∧ (e.addr + i) % sramSize = o)) →
          s'.sramByte u o = s.sramByte u o)) ∧
  (∀ (s s' : State) (t p : Nat) (f : Fields) (x : Ctx) (l : List LaneAt),
      (Runs 0x11 { d := true, a := true, imm := 0x3FFFFFFF, lanewise := true } s t p f x ∧
          l = x.rowLanes (laneBits f.imm) ∧ Sys2Proof.Machine.exec (.vst t p f) s = .next s' ∨
        Runs 0x13 { d := true, a := true, b := true, imm := 0x30000000, lanewise := true } s t p f x ∧
          l = x.gatherLanes (laneBits f.imm) ∧ Sys2Proof.Machine.exec (.vstx t p f) s = .next s') →
      x.badLane (laneBits f.imm) l = none → x.cr.members.Nodup → (∀ u ∈ x.cr.members, u < s.tiles.length) →
      (∀ u, (s.tile u).sram.Wf) → ∀ e ∈ l, ∀ i, i < elemBytes (laneBits f.imm) →
      (laneBits f.imm ≠ 4 →
        (∀ g ∈ l, e.lane < g.lane → ¬(g.addr ≤ e.addr + i ∧ e.addr + i < g.addr + elemBytes (laneBits f.imm))) →
        s'.sramByte (x.cr.members.getD ((e.addr + i) / sramSize) 0) ((e.addr + i) % sramSize) =
          BitVec.ofNat 8 ((x.ph.lane f.d.toNat e.lane).toNat / 256 ^ i)) ∧
      (laneBits f.imm = 4 → (∀ g ∈ l, e.lane < g.lane → ¬(g.addr = e.addr ∧ g.nib = e.nib)) →
        (s'.sramByte (x.cr.members.getD (e.addr / sramSize) 0) (e.addr % sramSize)).toNat / 16 ^ e.nib % 16 =
          (x.ph.lane f.d.toNat e.lane).toNat % 16))

/-- DMA of a descriptor without a fault starts its transfer under its tag: the transfer holds the descriptor's fields, what a
write takes from SRAM stands in it already (log entry 92), and no memory changes; one of no bytes completes at once with OK
(R146, R148, R149). A DMA waits while its tag is outstanding; a descriptor outside SRAM, or with a direction, a flag or a tree it
may not have, raises the memory fault with the descriptor's address, one that is misaligned or leaves the clause's SRAM raises the
memory fault, cause 3, and one with a row outside the clause's regions, in two of them, or in a read-only one that it writes, the
region fault, cause 4 (R148-R150). DMAW, once no transfer of its tags is outstanding, writes OK, or UNCORR where one of them met an uncorrected
error; while one is outstanding it waits (R151). A transfer completes once its answers are there and no earlier access of its
phrase to the same bytes is outstanding: it leaves the tile's transfers, and its tag takes its status (R146, R151). Within this
device, on sound lines of the West half, every row of a read stands in the clause's SRAM, a later row over an earlier one and
beneath a store made since the DMA, and every row of a write in HBM; a multicast row stands in each tile of its tree; no other
byte changes, and the tag reports OK (R148, R151, R326). A transfer that another device refuses moves no byte and raises the
region fault, cause 4, with the descriptor's address (R379). -/
def Obligations.DmaTransfers : Prop :=
  (∀ (s : State) (t p : Nat) (f : Fields) (x : Ctx) (d : DmaDesc), Runs 0x17 { a := true, imm := 0xF } s t p f x →
      (∀ e ∈ x.T.dmas, e.slot = p → e.tag ≠ f.imm.toNat) → x.sramOk (x.ph.rs f.a).toNat 32 32 = true →
      d = parseDma (x.load (x.ph.rs f.a).toNat 32) → d.dir ≤ 1 → d.flags ≤ 1 → (d.flags = 0 → d.tree = 0) →
      (0 < d.rows → 0 < d.rowBytes → dmaFault x d = none → t < s.tiles.length →
        ∃ s' e, Sys2Proof.Machine.exec (.dma t p f) s = .next s' ∧ s'.phraseAt t p = some (x.ph.setTag f.imm.toNat 0).advance ∧
          (s'.tile t).dmas = (s.tile t).dmas ++ [e] ∧ e.slot = p ∧ e.tag = f.imm.toNat ∧ e.toHbm = decide (d.dir = 1) ∧
          e.rows = d.rows ∧ e.addr = d.addr ∧ e.sram = d.sram ∧ e.rowBytes = d.rowBytes ∧ e.hbmStride = d.hbmStride ∧
          e.sramStride = d.sramStride ∧ e.dests = (if d.flags = 1 then s.mcastTiles x.c d.tree else none) ∧
          (d.dir = 1 → ∀ r, r < d.rows → e.src[r]? = some (x.load (d.sram + r * d.sramStride) d.rowBytes)) ∧
          (s.elsewhere d.addr = false → e.via = .here) ∧
          (s.elsewhere d.addr = true → e.via = .unreachable ∨ ∃ ids, e.via = .sent ids ∧ ids.length = d.rows) ∧
          s'.hbm = s.hbm ∧ ∀ u o, s'.sramByte u o = s.sramByte u o) ∧
      (d.rows = 0 ∨ d.rowBytes = 0 →
        ∃ s', Sys2Proof.Machine.exec (.dma t p f) s = .next s' ∧ (s'.tile t).dmas = (s.tile t).dmas ∧
          s'.phraseAt t p = some (x.ph.setTag f.imm.toNat 0).advance ∧ s'.hbm = s.hbm ∧
          ∀ u o, s'.sramByte u o = s.sramByte u o)) ∧
  (∀ (s : State) (t p : Nat) (f : Fields) (x : Ctx) (d : DmaDesc), Runs 0x17 { a := true, imm := 0xF } s t p f x →
      ((∃ e ∈ x.T.dmas, e.slot = p ∧ e.tag = f.imm.toNat) → Sys2Proof.Machine.exec (.dma t p f) s = .next s) ∧
      ((∀ e ∈ x.T.dmas, e.slot = p → e.tag ≠ f.imm.toNat) → d = parseDma (x.load (x.ph.rs f.a).toNat 32) →
        (x.sramOk (x.ph.rs f.a).toNat 32 32 = false ∨ 1 < d.dir ∨ 1 < d.flags ∨ (d.flags = 0 ∧ d.tree ≠ 0) →
          Sys2Proof.Machine.exec (.dma t p f) s = .next (x.retireFault 0x17 3 (x.ph.rs f.a) none)) ∧
        (x.sramOk (x.ph.rs f.a).toNat 32 32 = true → d.dir ≤ 1 → d.flags ≤ 1 → (d.flags = 0 → d.tree = 0) → 0 < d.rows →
          0 < d.rowBytes →
          ((d.addr.toNat % 4 ≠ 0 ∨ d.sram % 4 ≠ 0 ∨ d.rowBytes % 4 ≠ 0 ∨ d.hbmStride % 4 ≠ 0 ∨ d.sramStride % 4 ≠ 0 ∨
              (d.flags = 1 ∧ (d.dir = 1 ∨ s.mcastTiles x.c d.tree = none)) ∨
              ∃ r, r < d.rows ∧ (if d.flags = 1 then sramSize else x.cr.members.length * sramSize) <
                d.sram + r * d.sramStride + d.rowBytes) →
            ∃ a, Sys2Proof.Machine.exec (.dma t p f) s = .next (x.retireFault 0x17 3 a none)) ∧
          (d.addr.toNat % 4 = 0 → d.sram % 4 = 0 → d.rowBytes % 4 = 0 → d.hbmStride % 4 = 0 → d.sramStride % 4 = 0 →
            d.flags = 0 → (∀ r, r < d.rows → d.sram + r * d.sramStride + d.rowBytes ≤ x.cr.members.length * sramSize) →
            isRemote d.addr = false →
            (∃ r, r < d.rows ∧ ∀ g ∈ s.regions, g.grants x.c = true →
              g.holds (d.addr.toNat + r * d.hbmStride) d.rowBytes = true → 3 ≤ g.kind ∨ (g.kind = 1 ∧ d.dir = 1)) →
            ∃ a, Sys2Proof.Machine.exec (.dma t p f) s = .next (x.retireFault 0x17 4 a none))))) ∧
  (∀ (s : State) (t p : Nat) (f : Fields) (x : Ctx), Runs 0x18 { d := true, imm := 0xFFFF } s t p f x →
      ((∀ e ∈ x.T.dmas, e.slot = p → bitAt f.imm.toNat e.tag = false) →
        ∃ s', Sys2Proof.Machine.exec (.dmaw t p f) s = .next s' ∧
          s'.phraseAt t p = some (x.ph.ws f.d
            (if (List.range 16).any (fun k => bitAt f.imm.toNat k && x.ph.tags.getD k 0 == 0x41) then 0x41 else 0)).advance ∧
          (∀ k ∈ (s'.tile t).fills, k.slot = p → bitAt f.imm.toNat k.tag = false) ∧ s'.hbm = s.hbm ∧
          ∀ u o, s'.sramByte u o = s.sramByte u o) ∧
      (∀ e ∈ x.T.dmas, e.slot = p → bitAt f.imm.toNat e.tag = true → Sys2Proof.Machine.exec (.dmaw t p f) s = .next s)) ∧
  (∀ (s : State) (t p tag c : Nat) (d : Dma), s.tileUp t = true → t < s.tiles.length → (s.tile t).clause = some c →
      ((s.tile t).dmas.find? fun e => e.slot == p && e.tag == tag) = some d → s.viaReady d.via = true →
      s.dmaBehind t (s.members c) d = false →
      (∃ s', Sys2Proof.Machine.exec (.dmaTransferComplete t p tag) s = .next s' ∧
        (∀ e ∈ (s'.tile t).dmas, ¬(e.slot = p ∧ e.tag = tag)) ∧
        (∀ e ∈ (s.tile t).dmas, ¬(e.slot = p ∧ e.tag = tag) → e ∈ (s'.tile t).dmas) ∧
        ∀ ph, s.phraseAt t p = some ph →
          ∃ st, (st = 0 ∨ st = 0x30 ∨ st = 0x41) ∧ s'.phraseAt t p = some (ph.setTag tag st)) ∧
      (d.via = .here → (∀ r, r < d.rows → d.hbm + r * d.hbmStride + d.rowBytes ≤ 6 * stackSize ∧
          s.struckLines (d.hbm + r * d.hbmStride) d.rowBytes = []) → s.hbm.Wf → (∀ u, (s.tile u).sram.Wf) →
        ∃ s', Sys2Proof.Machine.exec (.dmaTransferComplete t p tag) s = .next s' ∧
          (∀ ph, s.phraseAt t p = some ph → s'.phraseAt t p = some (ph.setTag tag 0)) ∧
          (d.toHbm = false → d.dests = none → (s.members c).Nodup → (∀ u ∈ s.members c, u < s.tiles.length) →
            (∀ r, r < d.rows → d.sram + r * d.sramStride + d.rowBytes ≤ (s.members c).length * sramSize) →
            s'.hbm = s.hbm ∧
            (∀ r o u b, r < d.rows → o < d.rowBytes →
              (s.members c)[(d.sram + r * d.sramStride + o) / sramSize]? = some u →
              b = (d.sram + r * d.sramStride + o) % sramSize →
              (∀ q, r < q → q < d.rows → ¬(d.sram + q * d.sramStride ≤ d.sram + r * d.sramStride + o ∧
                d.sram + r * d.sramStride + o < d.sram + q * d.sramStride + d.rowBytes)) →
              (∀ k ∈ s.overOf t d, partHas u b k = false) →
              s'.sramByte u b = s.hbmByte (d.hbm + r * d.hbmStride + o)) ∧
            (∀ u b, (∀ r o, r < d.rows → o < d.rowBytes →
                ¬((s.members c)[(d.sram + r * d.sramStride + o) / sramSize]? = some u ∧
                  b = (d.sram + r * d.sramStride + o) % sramSize)) ∨ (∃ k ∈ s.overOf t d, partHas u b k = true) →
              s'.sramByte u b = s.sramByte u b)) ∧
          (∀ ts, d.toHbm = false → d.dests = some ts → d.rows = 1 → s'.hbm = s.hbm ∧
            (∀ u ∈ ts, u < s.tiles.length → ∀ o, o < d.rowBytes → (∀ k ∈ s.overOf t d, partHas u (d.sram + o) k = false) →
              s'.sramByte u (d.sram + o) = s.hbmByte (d.hbm + o)) ∧
            (∀ u o, u ∉ ts ∨ o < d.sram ∨ d.sram + d.rowBytes ≤ o → s'.sramByte u o = s.sramByte u o)) ∧
          (d.toHbm = true → (∀ r, r < d.rows → (d.src.getD r []).length = d.rowBytes) →
            (∀ r o, r < d.rows → o < d.rowBytes →
              (∀ q, r < q → q < d.rows → ¬(d.hbm + q * d.hbmStride ≤ d.hbm + r * d.hbmStride + o ∧
                d.hbm + r * d.hbmStride + o < d.hbm + q * d.hbmStride + d.rowBytes)) →
              s'.hbmByte (d.hbm + r * d.hbmStride + o) = (d.src.getD r []).getD o 0) ∧
            (∀ a, (∀ r, r < d.rows → a < d.hbm + r * d.hbmStride ∨ d.hbm + r * d.hbmStride + d.rowBytes ≤ a) →
              s'.hbmByte a = s.hbmByte a) ∧
            ∀ u o, s'.sramByte u o = s.sramByte u o)) ∧
      (∀ ids i, d.via = .sent ids → i ∈ ids → s.response i = some .refused →
        ∃ s', Sys2Proof.Machine.exec (.dmaTransferComplete t p tag) s = .next s' ∧ s'.hbm = s.hbm ∧
          (∀ u o, s'.sramByte u o = s.sramByte u o) ∧
          ((s.tile t).fault.valid = false → (s'.tile t).fault =
            { valid := true, cause := 4, phrase := p, pc := d.pc, detail := d.word.extractLsb' 32 32, addr := d.addr })))

/-- ATOM puts one atomic on its way for each active lane, in ascending order, once every one passes its checks: its cell at s[a] +
v[b][l], its operand from v[c], for another device where its address names one; no memory changes yet (R157, R171, R343, R378,
R594). Kind 3, and an int64 operand of v31, is illegal; the first active lane whose cell is misaligned or outside the clause's
atomic regions raises the region fault, cause 4, with its address, and one whose address breaks R378 the memory fault, cause 3. HBM_ATOMIC performs the one it names once its answer is there and no earlier access of its source to the same bytes is
outstanding (R146). On a sound cell of an awake half the cell's exact value becomes the operation's result, held at its guard
bound, and its bytes hold it clamped to the cell's width; every other byte of HBM stays (R343, R344, R346). In a sleeping half it
changes no byte and raises the half-asleep fault, cause 5 (R325, R395); refused by its device or unreachable, the region fault,
cause 4 (R374, R379). -/
def Obligations.Atomics : Prop :=
  (∀ (s : State) (t p : Nat) (f : Fields) (x : Ctx),
      Runs 0x92 { a := true, b := true, c := true, imm := 0x7, lanewise := true } s t p f x →
      f.imm.toNat % 4 ≠ 3 → (4 ≤ f.imm.toNat → f.c ≠ 31) →
      (∀ l ∈ x.lanes, x.atomFault (if 4 ≤ f.imm.toNat then 8 else 4) l = none) →
      ∃ s', Sys2Proof.Machine.exec (.atom t p f) s = .next s' ∧ s'.phraseAt t p = some x.ph.advance ∧ s'.hbm = s.hbm ∧
        (∀ u o, s'.sramByte u o = s.sramByte u o) ∧ s'.atoms.take s.atoms.length = s.atoms ∧
        s'.atoms.length = s.atoms.length + x.lanes.length ∧
        ∀ i l, x.lanes[i]? = some l → ∃ e, s'.atoms[s.atoms.length + i]? = some e ∧
          e.clause = x.c ∧ e.tile = t ∧ e.slot = p ∧ e.pc = x.ph.pc ∧ e.word = wordOf 0x92 f ∧ e.isFold = false ∧
          e.addr = x.ph.rs f.a + (x.ph.lane f.b.toNat l).setWidth 64 ∧ e.hbm = hbmPart e.addr ∧ e.code = f.imm.extractLsb' 0 3 ∧
          e.operand = (if 4 ≤ f.imm.toNat then (x.ph.lane (f.c.toNat + 1) l ++ x.ph.lane f.c.toNat l).toInt
            else (x.ph.lane f.c.toNat l).toInt) ∧
          (s.elsewhere e.addr = false → e.via = .here) ∧
          (s.elsewhere e.addr = true → e.via = .unreachable ∨ ∃ id, e.via = .sent [id])) ∧
  (∀ (s : State) (t p : Nat) (f : Fields) (x : Ctx) (w : Nat), w = (if 4 ≤ f.imm.toNat then 8 else 4) →
      Runs 0x92 { a := true, b := true, c := true, imm := 0x7, lanewise := true } s t p f x →
      ((f.imm.toNat % 4 = 3 ∨ (4 ≤ f.imm.toNat ∧ f.c = 31)) →
        Sys2Proof.Machine.exec (.atom t p f) s = .next (x.retireFault 0x92 1 0 none)) ∧
      ∀ l a, f.imm.toNat % 4 ≠ 3 → (4 ≤ f.imm.toNat → f.c ≠ 31) → l < 64 → (x.ph.active f).getLsbD l = true →
        (∀ m, m < l → (x.ph.active f).getLsbD m = true → x.atomFault w m = none) →
        a = x.ph.rs f.a + (x.ph.lane f.b.toNat l).setWidth 64 →
        (isRemote a = true → a.toNat / 2 ^ 56 % 2 ^ 7 ≠ 0 →
          Sys2Proof.Machine.exec (.atom t p f) s = .next (x.retireFault 0x92 3 a none)) ∧
        ((isRemote a = false ∨ a.toNat / 2 ^ 56 % 2 ^ 7 = 0) →
          (hbmPart a % w ≠ 0 ∨ (s.elsewhere a = false ∧
            ∀ g ∈ s.regions, g.grants x.c = true → g.holds (hbmPart a) w = true → g.kind ≠ 2)) →
          Sys2Proof.Machine.exec (.atom t p f) s = .next (x.retireFault 0x92 4 a none))) ∧
  (∀ (s : State) (k : Nat) (e : AtomReq), s.up = true → s.atoms[k]? = some e → s.viaReady e.via = true →
      (s.atoms.take k).any (fun b => b.before e) = false → s.atomBehind e = false →
      (∃ s', Sys2Proof.Machine.exec (.hbmAtomic k) s = .next s' ∧ s'.atoms = s.atoms.eraseIdx k ∧
        (∀ a, a < e.hbm ∨ e.hbm + atomWidth e.code ≤ a → s'.hbmByte a = s.hbmByte a) ∧
        (e.via ≠ .here → s'.hbm = s.hbm) ∧ ∀ u o, s'.sramByte u o = s.sramByte u o) ∧
      (e.via = .here → s.hbmAsleep e.hbm (atomWidth e.code) = false → s.struckAt e.hbm = false → s.hbm.Wf →
        ∃ s', Sys2Proof.Machine.exec (.hbmAtomic k) s = .next s' ∧ s'.atoms = s.atoms.eraseIdx k ∧
          s'.exactOf e.hbm (atomWidth e.code) =
            max (-guardBound (atomWidth e.code)) (min (guardBound (atomWidth e.code))
              (atomOp e.code (s.exactOf e.hbm (atomWidth e.code)) e.operand)) ∧
          signed (8 * atomWidth e.code) (s'.hbm.readLe e.hbm (atomWidth e.code)) =
            clampS (8 * atomWidth e.code) (s'.exactOf e.hbm (atomWidth e.code)) ∧
          s'.dev.aCount = satAdd 48 s.dev.aCount 1 ∧ s'.tiles = s.tiles) ∧
      (e.via = .here → s.hbmAsleep e.hbm (atomWidth e.code) = true →
        ∃ s', Sys2Proof.Machine.exec (.hbmAtomic k) s = .next s' ∧ s'.hbm = s.hbm ∧
          (e.isFold = false → e.tile < s.tiles.length → (s.tile e.tile).fault.valid = false → (s'.tile e.tile).fault =
            { valid := true, cause := 5, phrase := e.slot, pc := e.pc, detail := e.word.extractLsb' 32 32, addr := e.addr })) ∧
      (e.via = .unreachable ∨ (∃ id r, e.via = .sent (id :: r) ∧ s.response id = some .refused) →
        ∃ s', Sys2Proof.Machine.exec (.hbmAtomic k) s = .next s' ∧ s'.hbm = s.hbm ∧
          (e.isFold = false → e.tile < s.tiles.length → (s.tile e.tile).fault.valid = false → (s'.tile e.tile).fault =
            { valid := true, cause := 4, phrase := e.slot, pc := e.pc, detail := e.word.extractLsb' 32 32, addr := e.addr })))

/-- A cell's exact value after atomics of one kind does not depend on their order where its value before them with every positive
operand, and with every negative one, stays within the guard range; adds leave the sum. A write that is no atomic sets the exact
value of every cell it touches to the cell's stored bytes (R345, R346). -/
def Obligations.AtomicOrder : Prop :=
  (∀ (s : State) (a : Nat) (code : BitVec 3) (l l' : List Int), s.hbm.Wf → s.struckAt a = false → l.Perm l' → code.toNat % 4 ≠ 3 →
    s.exactOf a (atomWidth code) + (l.filter fun o => decide (0 < o)).sum ≤ guardBound (atomWidth code) →
    -guardBound (atomWidth code) ≤ s.exactOf a (atomWidth code) + (l.filter fun o => decide (o < 0)).sum →
    (l.foldl (fun u o => (u.atomic a code o).1) s).exactOf a (atomWidth code) =
      (l'.foldl (fun u o => (u.atomic a code o).1) s).exactOf a (atomWidth code) ∧
    (code.toNat % 4 = 0 → (l.foldl (fun u o => (u.atomic a code o).1) s).exactOf a (atomWidth code) =
      s.exactOf a (atomWidth code) + l.sum)) ∧
  (∀ (s : State) (a b w : Nat) (l : List Byte), l ≠ [] → w = 4 ∨ w = 8 → b < a + l.length → a < b + w → s.firstOffline a l.length = none →
    (s.hbmWrite a l).1.exactOf b w = signed (8 * w) ((s.hbmWrite a l).1.hbm.readLe b w))

/-- An access at the controller of a trained stack, in an awake half and on sound lines: a write stores its bytes, a read returns
the bytes that stand there and changes none; the refresh of a stack records its temperature, counts what its scrub corrected, and
changes no bit (R391, R393, R394, R497, R590). A read that meets an uncorrected error returns UNCORR, with zeros in the struck line, which stays bad; a later
write makes the line good, with 0 in every byte the write does not supply (R393, R597). A request that another device sent over
link n, the first there for its stack, is performed and leaves that link's queue, unless a REPLAY of its clause makes it wait
(R448): a write of a transfer that the clause's regions grant whole stores its bytes and no other, an atomic they grant moves its
cell's exact value, and a read or a request they do not grant changes no byte (R378, R379). The write and the atomic are stated
in the West half on sound lines. -/
def Obligations.ControllerAccess : Prop :=
  (∀ (s : State) (a : Nat), s.up = true → s.hbm.Wf → (s.stack (a / stackSize)).up = true →
      (∀ n, 0 < n → a + n ≤ hbmEnd → s.hbmAsleep a n = false → s.struckLines a n = [] →
        ∃ s', Sys2Proof.Machine.exec (.hbmAccess a (.read n) .clean) s = .next s' ∧
          s'.hbmResp = { status := 0, data := (List.range n).map fun i => s.hbmByte (a + i) } ∧ s'.hbm = s.hbm ∧
          s'.bad = s.bad ∧ s'.exact = s.exact) ∧
      (∀ l : List Byte, l ≠ [] → a + l.length ≤ hbmEnd → s.hbmAsleep a l.length = false →
        (∀ i, (s.stack i).offline = false) → s.bad = [] →
        ∃ s', Sys2Proof.Machine.exec (.hbmAccess a (.write l) .clean) s = .next s' ∧ s'.hbmResp = { status := 0, data := [] } ∧
          ∀ b, s'.hbmByte b = if a ≤ b ∧ b < a + l.length then l.getD (b - a) 0 else s.hbmByte b) ∧
      (∀ i sense, i < s.hbmStacks.length → (s.stack i).up = true →
        ∃ s', Sys2Proof.Machine.exec (.hbmRefresh i sense) s = .next s' ∧ (s'.stack i).temp = sense.temp % 256 ∧
          (s'.stack i).corr = satAdd 40 (s.stack i).corr sense.scrub ∧
          s' = { s with hbmStacks := s'.hbmStacks } ∧ ∀ j, j ≠ i → s'.stack j = s.stack j)) ∧
  (∀ (s : State) (line : Nat), s.up = true → s.hbm.Wf → 64 * line + 64 ≤ 6 * stackSize →
      (s.stack (64 * line / stackSize)).up = true → (s.stack (64 * line / stackSize)).offline = false →
      (∃ s', Sys2Proof.Machine.exec (.hbmAccess (64 * line) (.read 64) .uncorrected) s = .next s' ∧
        s'.hbmResp = { status := 0x41, data := List.replicate 64 0 } ∧ line ∈ s'.bad ∧ s'.hbm = s.hbm ∧
        (64 * line / stackSize < s.hbmStacks.length →
          (s'.stack (64 * line / stackSize)).uncorr = satAdd 16 (s.stack (64 * line / stackSize)).uncorr 1)) ∧
      (line ∈ s.bad → ∀ o v, o < 64 →
        ∃ s', Sys2Proof.Machine.exec (.hbmAccess (64 * line + o) (.write [v]) .clean) s = .next s' ∧ line ∉ s'.bad ∧
          s'.hbmByte (64 * line + o) = v ∧ ∀ i, i < 64 → i ≠ o → s'.hbmByte (64 * line + i) = 0)) ∧
  (∀ (s : State) (n : Nat) (m : Msg), s.up = true → n < s.links.length → s.hbm.Wf →
      ((s.link n).rxq.find? fun e => e.dstNode == m.dstNode) = some m → s.replaying (reqClause m.body) = false →
      ∃ s', Sys2Proof.Machine.exec (.remoteAccess n m) s = .next s' ∧ (s'.link n).rxq = (s.link n).rxq.erase m ∧
        (∀ c a k d, m.body = .dmaRead c a k d → s'.hbm = s.hbm) ∧
        (∀ c a l d, m.body = .dmaWrite c a l d → s.dmaRegion c a l.length true = false ∨ s.spanOk c d true = false →
          s'.hbm = s.hbm) ∧
        (∀ c a l d, m.body = .dmaWrite c a l d → s.dmaRegion c a l.length true = true → s.spanOk c d true = true → l ≠ [] →
          a + l.length ≤ 6 * stackSize → s.firstOffline a l.length = none → s.bad = [] →
          ∀ b, s'.hbmByte b = if a ≤ b ∧ b < a + l.length then l.getD (b - a) 0 else s.hbmByte b) ∧
        (∀ c a code v, m.body = .atomic c a code v → s.atomRegion c a (atomWidth code) = true → a % atomWidth code = 0 →
          code.toNat % 4 ≠ 3 → a + atomWidth code ≤ 6 * stackSize → s.struckAt a = false →
          s'.exactOf a (atomWidth code) = max (-guardBound (atomWidth code)) (min (guardBound (atomWidth code))
            (atomOp code (s.exactOf a (atomWidth code)) v))))

/-! ## The array (03, 04) -/

/-- AOPEN with no output tile open: the tile opens in its mode with every accumulator 0 and SAT clear, at Eref in a block mode; in a
gang member (0, 0) opens for every member, and another member opens as its multicast says, its own mode field ignored (R92, R97,
R98, R101, R105, R595). What an
open leaves in the array: an open output tile of its phrase whose every element is 0, valid and unpushed (R92, R105). ALDH takes
the held block from SRAM for the idle buffer, which HELD_LOAD_COMPLETE fills; the active buffer stays (R89, R161). A mode above 5 is
illegal, cause 1, where it is not ignored; both wait for another phrase's output tile (R98), a member for its multicast (R595), an
ALDH for the load before it (R89); an ALDH whose block or exponents are misaligned or leave the clause's SRAM raises the memory
fault, cause 3 (R160, R161). -/
def Obligations.ArrayOpens : Prop :=
  (∀ (s : State) (t p : Nat) (f : Fields) (x : Ctx), Runs 0x20 { a := true, imm := 0x7 } s t p f x →
      x.T.au.isOpen = false →
      (f.imm.toNat ≤ 5 → (x.ganged = false ∨ gangPos x.cr x.member = (0, 0)) →
        (blockMode f.imm.toNat = true → -254 ≤ (x.ph.rs f.a).toInt ∧ (x.ph.rs f.a).toInt ≤ 254) →
        ∃ s', Sys2Proof.Machine.exec (.aopen t p f) s = .next s' ∧ s'.phraseAt t p = some x.ph.advance ∧ s'.hbm = s.hbm ∧
          (s'.tile t).au =
            x.T.au.openTile p f.imm.toNat (if blockMode f.imm.toNat then (x.ph.rs f.a).toInt else 0) ∧
          (x.ganged = true → (gangOthers x.cr x.member t).Nodup → ∀ u ∈ gangOthers x.cr x.member t, u < s.tiles.length →
            (s'.tile u).au.opens =
              (s.tile u).au.opens ++ [(f.imm.toNat, if blockMode f.imm.toNat then (x.ph.rs f.a).toInt else 0)])) ∧
      (x.ganged = true → gangPos x.cr x.member ≠ (0, 0) → ∀ m e r, x.T.au.opens = (m, e) :: r →
        ∃ s', Sys2Proof.Machine.exec (.aopen t p f) s = .next s' ∧ s'.phraseAt t p = some x.ph.advance ∧
          (s'.tile t).au = { x.T.au.openTile p m e with opens := r })) ∧
  (∀ (s : State) (t p : Nat) (f : Fields) (x : Ctx),
      (Runs 0x20 { a := true, imm := 0x7 } s t p f x →
        (5 < f.imm.toNat → (x.ganged = false ∨ gangPos x.cr x.member = (0, 0)) →
          Sys2Proof.Machine.exec (.aopen t p f) s = .next (x.retireFault 0x20 1 0 none)) ∧
        (f.imm.toNat ≤ 5 ∨ (x.ganged = true ∧ gangPos x.cr x.member ≠ (0, 0)) →
          (x.T.au.isOpen = true → x.T.au.owner ≠ p → Sys2Proof.Machine.exec (.aopen t p f) s = .next s) ∧
          (x.T.au.isOpen = false → x.ganged = true → gangPos x.cr x.member ≠ (0, 0) → x.T.au.opens = [] →
            Sys2Proof.Machine.exec (.aopen t p f) s = .next s))) ∧
      (Runs 0x21 { a := true, b := true, imm := 0x7 } s t p f x →
        (5 < f.imm.toNat → Sys2Proof.Machine.exec (.aldh t p f) s = .next (x.retireFault 0x21 1 0 none)) ∧
        (f.imm.toNat ≤ 5 → (x.T.au.isOpen = true ∧ x.T.au.owner ≠ p) ∨ x.T.au.loading ≠ none →
          Sys2Proof.Machine.exec (.aldh t p f) s = .next s) ∧
        (f.imm.toNat ≤ 5 → (x.T.au.isOpen = true → x.T.au.owner = p) → x.T.au.loading = none →
          (x.sramOk (x.ph.rs f.a).toNat (heldBytes f.imm.toNat) 64 = false →
            Sys2Proof.Machine.exec (.aldh t p f) s = .next (x.retireFault 0x21 3 (x.ph.rs f.a) none)) ∧
          (x.sramOk (x.ph.rs f.a).toNat (heldBytes f.imm.toNat) 64 = true → blockMode f.imm.toNat = true →
            x.sramOk (x.ph.rs f.b).toNat (64 * expsOf f.imm.toNat) 1 = false →
            Sys2Proof.Machine.exec (.aldh t p f) s = .next (x.retireFault 0x21 3 (x.ph.rs f.b) none))))) ∧
  (∀ (u : ArrayU) (p m : Nat) (e : Int),
      (u.openTile p m e).isOpen = true ∧ (u.openTile p m e).owner = p ∧ (u.openTile p m e).sat = false ∧
      (u.openTile p m e).held0 = u.held0 ∧ (u.openTile p m e).held1 = u.held1 ∧
      ∀ r c, r < 64 → c < 64 → ∃ a, (((u.openTile p m e).acc.getD r [])[c]?) = some a ∧ a.count = 0 ∧ a.inv = false ∧
        a.final (blockMode m) = 0) ∧
  ((∀ (s : State) (t p : Nat) (f : Fields) (x : Ctx), Runs 0x21 { a := true, b := true, imm := 0x7 } s t p f x →
      f.imm.toNat ≤ 5 → (x.T.au.isOpen = true → x.T.au.owner = p) → x.T.au.loading = none →
      x.sramOk (x.ph.rs f.a).toNat (heldBytes f.imm.toNat) 64 = true →
      (blockMode f.imm.toNat = true → x.sramOk (x.ph.rs f.b).toNat (64 * expsOf f.imm.toNat) 1 = true) →
      ∃ s', Sys2Proof.Machine.exec (.aldh t p f) s = .next s' ∧ s'.phraseAt t p = some x.ph.advance ∧ s'.hbm = s.hbm ∧
        (s'.tile t).au =
          { x.T.au with loading := some (x.heldAt f.imm.toNat (x.ph.rs f.a).toNat (x.ph.rs f.b).toNat) } ∧
        ∀ u o, s'.sramByte u o = s.sramByte u o) ∧
    (∀ (s : State) (t : Nat) (h : Held), s.tileUp t = true → (s.tile t).au.loading = some h →
      ∃ s', Sys2Proof.Machine.exec (.heldLoadComplete t) s = .next s' ∧ (s'.tile t).au.loading = none ∧
        (s'.tile t).au.held (!(s.tile t).au.active) = h ∧
        (s'.tile t).au.held (s.tile t).au.active = (s.tile t).au.held (s.tile t).au.active ∧
        (s'.tile t).au.active = (s.tile t).au.active ∧ (s'.tile t).au.acc = (s.tile t).au.acc ∧ s'.hbm = s.hbm ∧
        ∀ u, u ≠ t → s'.tile u = s.tile u))

/-- AMAC pushes its n rows, the swap it asks for made first: a member of gang column 0 (and an ungrouped tile) reads them from SRAM,
another member takes the rows multicast to it, and rows that do not correspond with its own leave those elements open, which the
model fills with free sums (log entry 15); no byte of memory changes (R89, R93, R100, R162, R595). Rows beyond the 64 of the output
tile are illegal, cause 1; in a block mode a stride that is no multiple of a block, and a row or its exponents outside the clause's
SRAM, raise the memory fault, cause 3 (R160, R162); an AMAC waits for another phrase's output tile (R98), for the load of the buffer
it swaps to (R89) and for the rows multicast to it (R595). What a stream row adds to its
64 accumulators in an integer mode: to each column's sum the products of the row's elements with that column of the held block,
and to its count one for each chunk (R87, R91, R92). One block partial in a block mode: an exponent 0x80, or a nonzero partial
above Eref, sets INV and adds nothing; otherwise the accumulator takes P × 2^(E - Eref + 24), exactly where no bit falls below
its unit (R95, R96). -/
def Obligations.ArrayAccumulates : Prop :=
  (∀ (s : State) (t p : Nat) (f : Fields) (x : Ctx) (n r0 : Nat) (swap : Bool),
      Runs 0x22 { a := true, b := true, c := true, imm := 0x3FFF } s t p f x →
      swap = f.imm.getLsbD 0 → n = f.imm.toNat / 2 % 128 → r0 = f.imm.toNat / 256 % 64 → r0 + n ≤ 64 →
      x.T.au.isOpen = true → x.T.au.owner = p → (swap = true → x.T.au.loading = none) →
      (0 < n ∨ swap = true → (x.T.au.held (x.T.au.active != swap)).mode = some x.T.au.mode) →
      (∀ i, i < n → x.gangCount (r0 + i) + chunksOf x.T.au.mode ≤ 65536) →
      ((n = 0 ∨ (gangPos x.cr x.member).2 = 0 ∧
          (blockMode x.T.au.mode = true → (x.ph.rs f.b).toNat % (if x.T.au.mode = 2 then 32 else 16) = 0) ∧
          x.amacBad x.T.au.mode n = none ∧
          ∀ i, i + 1 < x.cr.gangB → gangTile x.cr x.member (gangPos x.cr x.member).1 (i + 1) ≠ t) →
        ∃ s', Sys2Proof.Machine.exec (.amac t p f) s = .next s' ∧ s'.phraseAt t p = some x.ph.advance ∧ s'.hbm = s.hbm ∧
          (s'.tile t).au = (x.T.au.swapped swap).pushRows r0 (x.amacRows x.T.au.mode n) ∧
          ∀ u o, s'.sramByte u o = s.sramByte u o) ∧
      (∀ rows rest, (gangPos x.cr x.member).2 ≠ 0 → 0 < n → x.T.au.rows = (r0, rows) :: rest → rows.length = n →
        ∃ s', Sys2Proof.Machine.exec (.amac t p f) s = .next s' ∧ s'.phraseAt t p = some x.ph.advance ∧ s'.hbm = s.hbm ∧
          (s'.tile t).au = { (x.T.au.swapped swap).pushRows r0 rows with rows := rest }) ∧
      (∀ q rows rest, (gangPos x.cr x.member).2 ≠ 0 → 0 < n → x.T.au.rows = (q, rows) :: rest → (q ≠ r0 ∨ rows.length ≠ n) →
        ∃ s', Sys2Proof.Machine.exec (.amac t p f) s = .next s' ∧ s'.phraseAt t p = some x.ph.advance ∧ s'.hbm = s.hbm ∧
          (s'.tile t).au.rows = rest ∧ (s'.tile t).au.isOpen = true ∧
          ∀ r, (r < r0 ∨ r0 + n ≤ r) → (s'.tile t).au.acc[r]? = x.T.au.acc[r]?) ∧
      ((gangPos x.cr x.member).2 ≠ 0 → 0 < n → x.T.au.rows = [] → Sys2Proof.Machine.exec (.amac t p f) s = .next s) ∧
      ((gangPos x.cr x.member).2 = 0 → 0 < n → blockMode x.T.au.mode = true →
        (x.ph.rs f.b).toNat % (if x.T.au.mode = 2 then 32 else 16) ≠ 0 →
        Sys2Proof.Machine.exec (.amac t p f) s = .next (x.retireFault 0x22 3 (x.ph.rs f.a) none)) ∧
      (∀ a, (gangPos x.cr x.member).2 = 0 → 0 < n →
        (blockMode x.T.au.mode = true → (x.ph.rs f.b).toNat % (if x.T.au.mode = 2 then 32 else 16) = 0) →
        x.amacBad x.T.au.mode n = some a →
        Sys2Proof.Machine.exec (.amac t p f) s = .next (x.retireFault 0x22 3 (BitVec.ofNat 64 a) none))) ∧
  (∀ (s : State) (t p : Nat) (f : Fields) (x : Ctx),
      Runs 0x22 { a := true, b := true, c := true, imm := 0x3FFF } s t p f x →
      (64 < f.imm.toNat / 256 % 64 + f.imm.toNat / 2 % 128 →
        Sys2Proof.Machine.exec (.amac t p f) s = .next (x.retireFault 0x22 1 0 none)) ∧
      (f.imm.toNat / 256 % 64 + f.imm.toNat / 2 % 128 ≤ 64 → x.T.au.isOpen = true →
        (x.T.au.owner ≠ p ∨ (f.imm.getLsbD 0 = true ∧ x.T.au.loading ≠ none)) →
        Sys2Proof.Machine.exec (.amac t p f) s = .next s)) ∧
  (∀ (m : Nat) (eref : Int) (h : Held) (row : StreamRow) (accs : List Acc), blockMode m = false →
      accs.length = 64 → row.elems.length = 64 * chunksOf m → h.data.length = 64 * chunksOf m →
      (∀ r ∈ h.data, r.length = 64) →
      (pushRow m eref h row accs).length = 64 ∧
      ∀ c a, accs[c]? = some a → ∃ b, (pushRow m eref h row accs)[c]? = some b ∧ b.count = a.count + chunksOf m ∧
        b.final false = a.final false +
          isum ((List.range (64 * chunksOf m)).map fun k => row.elems.getD k 0 * (h.data.getD k []).getD c 0)) ∧
  (∀ (a : Acc) (q ea eb eref : Int),
      (ea = -128 ∨ eb = -128 ∨ (q ≠ 0 ∧ eref < ea + eb) → a.addBlock q ea eb eref = { a with inv := true }) ∧
      (ea ≠ -128 → eb ≠ -128 → (q = 0 ∨ ea + eb ≤ eref) →
        (a.addBlock q ea eb eref).inv = a.inv ∧ (a.addBlock q ea eb eref).count = a.count ∧
        (∀ k : Nat, ea + eb = eref - 24 + k → (a.addBlock q ea eb eref).acc = a.acc + q * 2 ^ k) ∧
        (∀ k : Nat, k < 64 → ea + eb = eref - 24 - k →
          2 * (((a.addBlock q ea eb eref).acc - a.acc) * 2 ^ k - q) ≤ 2 ^ k ∧
          -(2 ^ k : Int) ≤ 2 * (((a.addBlock q ea eb eref).acc - a.acc) * 2 ^ k - q))))

/-- ADRN of a tile that heads its column: the output tile closes, its elements as drained stand in SRAM row by row at s[a] + r s[b],
SAT and the flags are reported; a member of a gang row beyond 0 sends its final sums on and closes, its own drain mode ignored
(R100, R102 to R105, R595). A drain mode of 3 is illegal, cause 1; a row outside the clause's SRAM raises the memory fault, cause 3,
with the first such row's address (R160); an ADRN waits for another phrase's output tile (R98) and for its column's sums (R595).
GANG_COMBINE
adds the final sums of a column block's other members, each of which has sent some, and gives them to its root (R100, R342). -/
def Obligations.ArrayDrains : Prop :=
  (∀ (s : State) (t p : Nat) (f : Fields) (x : Ctx) (drain w : Nat) (sums : List (List (Int × Bool))),
      Runs 0x23 { a := true, b := true, imm := 0xFF03 } s t p f x →
      drain = f.imm.toNat % 4 → w = drainWidth drain → x.T.au.isOpen = true → x.T.au.owner = p →
      ((gangPos x.cr x.member).1 = 0 → drain ≠ 3 → (drain = 0 → blockMode x.T.au.mode = false ∧ f.imm.toNat / 256 % 256 = 0) →
        (if x.cr.gangA ≤ 1 then sums = x.T.au.finals else ∃ m, x.T.au.sums.head? = some m ∧ sums = addFinals x.T.au.finals m) →
        (∀ r, r < 64 → x.sramOk (x.drainRow r) (64 * w) w = true) →
        ∃ s' fl, Sys2Proof.Machine.exec (.adrn t p f) s = .next s' ∧
          s'.phraseAt t p = some { x.ph.advance with vflags := x.ph.vflags ||| fl } ∧ s'.hbm = s.hbm ∧
          (s'.tile t).au.isOpen = false ∧ (s'.tile t).au.sat = fl.getLsbD 3 ∧
          (∀ (r c : Nat) (v : Int × Bool), (sums.getD r [])[c]? = some v → ∀ i, i < 5 →
            (drainElem drain x.T.au.mode x.T.au.eref (signed 8 (f.imm.toNat / 256)) v.1 v.2).2.getLsbD i = true →
            fl.getLsbD i = true) ∧
          (sums.length = 64 → (∀ l ∈ sums, l.length = 64) → x.cr.members.Nodup → (∀ u ∈ x.cr.members, u < s.tiles.length) →
            (∀ q r, q < r → r < 64 → x.drainRow q + 64 * w ≤ x.drainRow r ∨
              x.drainRow r + 64 * w ≤ x.drainRow q) →
            ∀ (r c : Nat) (v : Int × Bool) (i : Nat), r < 64 → (sums.getD r [])[c]? = some v → i < w →
              s'.sramByte (x.cr.members.getD ((x.drainRow r + w * c + i) / sramSize) 0) ((x.drainRow r + w * c + i) % sramSize) =
                BitVec.ofNat 8 ((drainElem drain x.T.au.mode x.T.au.eref (signed 8 (f.imm.toNat / 256)) v.1 v.2).1 / 256 ^ i))) ∧
      ((gangPos x.cr x.member).1 ≠ 0 →
        ∃ s', Sys2Proof.Machine.exec (.adrn t p f) s = .next s' ∧ s'.phraseAt t p = some x.ph.advance ∧
          (s'.tile t).au = { x.T.au.closed x.T.au.sat with sums := x.T.au.sums ++ [x.T.au.finals] } ∧ s'.hbm = s.hbm ∧
          ∀ u o, s'.sramByte u o = s.sramByte u o)) ∧
  (∀ (s : State) (t p : Nat) (f : Fields) (x : Ctx) (drain w : Nat), Runs 0x23 { a := true, b := true, imm := 0xFF03 } s t p f x →
      drain = f.imm.toNat % 4 → w = drainWidth drain →
      ((gangPos x.cr x.member).1 = 0 → drain = 3 →
        Sys2Proof.Machine.exec (.adrn t p f) s = .next (x.retireFault 0x23 1 0 none)) ∧
      ((gangPos x.cr x.member).1 ≠ 0 ∨ drain ≠ 3 → x.T.au.isOpen = true → x.T.au.owner ≠ p →
        Sys2Proof.Machine.exec (.adrn t p f) s = .next s) ∧
      ((gangPos x.cr x.member).1 = 0 → drain ≠ 3 → x.T.au.isOpen = true → x.T.au.owner = p →
        (drain = 0 → blockMode x.T.au.mode = false ∧ f.imm.toNat / 256 % 256 = 0) →
        (1 < x.cr.gangA → x.T.au.sums = [] → Sys2Proof.Machine.exec (.adrn t p f) s = .next s) ∧
        ∀ r, (1 < x.cr.gangA → x.T.au.sums ≠ []) → r < 64 → (∀ q, q < r → x.sramOk (x.drainRow q) (64 * w) w = true) →
          x.sramOk (x.drainRow r) (64 * w) w = false →
          Sys2Proof.Machine.exec (.adrn t p f) s = .next (x.retireFault 0x23 3 (BitVec.ofNat 64 (x.drainRow r)) none))) ∧
  (∀ (s : State) (t : Nat) (l : List Nat) (v : List (List (Int × Bool))) (vs : List (List (List (Int × Bool)))),
      s.gangLeaves t = l → l.map (fun m => (s.tile m).au.sums.head?) = (v :: vs).map some → l.Nodup → t ∉ l →
      t < s.tiles.length → s.tileUp t = true →
      ∃ s', Sys2Proof.Machine.exec (.gangCombine t) s = .next s' ∧
        (s'.tile t).au = { (s.tile t).au with sums := (s.tile t).au.sums ++ [vs.foldl addFinals v] } ∧
        (∀ m ∈ l, (s'.tile m).au = { (s.tile m).au with sums := (s.tile m).au.sums.drop 1 }) ∧
        (∀ u, u ≠ t → u ∉ l → s'.tile u = s.tile u) ∧ s' = { s with tiles := s'.tiles })

/-- The array faults, causes 1 to 6: each records the fault with cause 2 and its own cause in TSQ_ARR_STAT, freezes the clause, and
leaves the accumulators and the phrase as they stand (R93, R102, R106). -/
def Obligations.ArrayFaults : Prop :=
  ∀ (s : State) (t p : Nat) (f : Fields) (x : Ctx),
    (Runs 0x20 { a := true, imm := 0x7 } s t p f x →
      (f.imm.toNat ≤ 5 ∨ (x.ganged = true ∧ gangPos x.cr x.member ≠ (0, 0))) → x.T.au.isOpen = true → x.T.au.owner = p →
      Sys2Proof.Machine.exec (.aopen t p f) s = .next (x.retireArray 0x20 1)) ∧
    (Runs 0x20 { a := true, imm := 0x7 } s t p f x → f.imm.toNat ≤ 5 → x.T.au.isOpen = false →
      (x.ganged = false ∨ gangPos x.cr x.member = (0, 0)) →
      blockMode f.imm.toNat = true → ((x.ph.rs f.a).toInt < -254 ∨ 254 < (x.ph.rs f.a).toInt) →
      Sys2Proof.Machine.exec (.aopen t p f) s = .next (x.retireArray 0x20 6)) ∧
    (Runs 0x22 { a := true, b := true, c := true, imm := 0x3FFF } s t p f x →
      f.imm.toNat / 256 % 64 + f.imm.toNat / 2 % 128 ≤ 64 → x.T.au.isOpen = false →
      Sys2Proof.Machine.exec (.amac t p f) s = .next (x.retireArray 0x22 2)) ∧
    (Runs 0x22 { a := true, b := true, c := true, imm := 0x3FFF } s t p f x →
      f.imm.toNat / 256 % 64 + f.imm.toNat / 2 % 128 ≤ 64 → x.T.au.isOpen = true → x.T.au.owner = p →
      (f.imm.getLsbD 0 = true → x.T.au.loading = none) → (x.T.au.held (x.T.au.active != f.imm.getLsbD 0)).mode = some x.T.au.mode →
      (∃ i, i < f.imm.toNat / 2 % 128 ∧ 65536 < x.gangCount (f.imm.toNat / 256 % 64 + i) + chunksOf x.T.au.mode) →
      Sys2Proof.Machine.exec (.amac t p f) s = .next (x.retireArray 0x22 3)) ∧
    (Runs 0x22 { a := true, b := true, c := true, imm := 0x3FFF } s t p f x →
      f.imm.toNat / 256 % 64 + f.imm.toNat / 2 % 128 ≤ 64 → x.T.au.isOpen = true → x.T.au.owner = p →
      (f.imm.getLsbD 0 = true → x.T.au.loading = none) → (0 < f.imm.toNat / 2 % 128 ∨ f.imm.getLsbD 0 = true) →
      (x.T.au.held (x.T.au.active != f.imm.getLsbD 0)).mode ≠ some x.T.au.mode →
      Sys2Proof.Machine.exec (.amac t p f) s = .next (x.retireArray 0x22 5)) ∧
    (Runs 0x23 { a := true, b := true, imm := 0xFF03 } s t p f x →
      (f.imm.toNat % 4 ≠ 3 ∨ (gangPos x.cr x.member).1 ≠ 0) → x.T.au.isOpen = false →
      Sys2Proof.Machine.exec (.adrn t p f) s = .next (x.retireArray 0x23 2)) ∧
    (Runs 0x23 { a := true, b := true, imm := 0xFF03 } s t p f x → f.imm.toNat % 4 = 0 → (gangPos x.cr x.member).1 = 0 →
      x.T.au.isOpen = true → x.T.au.owner = p → (blockMode x.T.au.mode = true ∨ f.imm.toNat / 256 % 256 ≠ 0) →
      Sys2Proof.Machine.exec (.adrn t p f) s = .next (x.retireArray 0x23 4)) ∧
    ∀ op k, s.issuable t p op f = some x →
      ((x.retireArray op k).tile t).au = { x.T.au with faultCause := k } ∧
      (x.T.fault.valid = false → ((x.retireArray op k).tile t).fault.cause = 2 ∧
        ((x.retireArray op k).tile t).fault.valid = true) ∧
      (x.retireArray op k).frozen x.c = (s.clauseSt x.c).isSome ∧ (x.retireArray op k).phraseAt t p = some x.ph ∧
      (x.retireArray op k).hbm = s.hbm

/-! ## Vector arithmetic (03, 04) -/

/-- VADD, VSUB, VMUL and VFMA of type int32: each active lane takes the exact result modulo 2^32 or, saturating, clamped to int32,
which sets sat where it changes a value; inactive lanes and every other register stay (R115, R132). The six arithmetic
instructions in fp32 and packed bf16: to nearest each element is the exact result rounded once; with stochastic rounding, under
a granted key, the instruction completes too, and inactive lanes stay; without one it raises the random fault, and an entry of
the slot whose tag fails is erased and counted (R110, R111, R126, R169, R170, R456). A type 3, VDIV and VSQRT of int32, stochastic
rounding of int32, and saturation but in int32 add, subtract and multiply are illegal, cause 1 (R155); a lane-mode draw waits while
the phrase's own run draws (R289). -/
def Obligations.Arithmetic : Prop :=
  (∀ (s : State) (t p : Nat) (f : Fields) (x : Ctx) (op : BitVec 8) (u : Use) (o : VOp) (c : Nat → Nat → Fields → Instr)
      (sat : Bool) (g : Nat → Int),
      (op, u, o, c) ∈ arithmetic → (o = .add ∨ o = .sub ∨ o = .mul ∨ o = .fma ∧ sat = false) → Runs op u s t p f x →
      f.imm = (if sat then 10 else 2) → x.ph.v.length = 32 →
      (∀ l, g l = (match o with
        | .add => (x.ph.lane f.a.toNat l).toInt + (x.ph.lane f.b.toNat l).toInt
        | .sub => (x.ph.lane f.a.toNat l).toInt - (x.ph.lane f.b.toNat l).toInt
        | .mul => (x.ph.lane f.a.toNat l).toInt * (x.ph.lane f.b.toNat l).toInt
        | _ => (x.ph.lane f.a.toNat l).toInt * (x.ph.lane f.b.toNat l).toInt + (x.ph.lane f.c.toNat l).toInt)) →
      ∃ s' ph', Sys2Proof.Machine.exec (c t p f) s = .next s' ∧ s'.phraseAt t p = some ph' ∧ RegFrame s s' t p ∧
        LanesFlagged x ph' (fun l => BitVec.ofInt 32 (if sat then max (-2147483648) (min 2147483647 (g l)) else g l)) ∧
        ((sat = true ∧ ∃ l, l < 64 ∧ (x.ph.active f).getLsbD l = true ∧ (g l < -2147483648 ∨ 2147483647 < g l)) →
          ph'.vflags = x.ph.vflags ||| 8) ∧
        ((sat = true → ∀ l, l < 64 → (x.ph.active f).getLsbD l = true → -2147483648 ≤ g l ∧ g l ≤ 2147483647) →
          ph'.vflags = x.ph.vflags)) ∧
  (∀ (s : State) (t p : Nat) (f : Fields) (x : Ctx) (op : BitVec 8) (u : Use) (o : VOp) (c : Nat → Nat → Fields → Instr)
      (typ : Nat), (op, u, o, c) ∈ arithmetic → typ ≤ 1 → Runs op u s t p f x → x.ph.v.length = 32 →
      (f.imm = BitVec.ofNat 32 typ →
        ∃ s' ph', Sys2Proof.Machine.exec (c t p f) s = .next s' ∧ s'.phraseAt t p = some ph' ∧ RegFrame s s' t p ∧
          LanesFlagged x ph' fun l => nearestLane typ fun sh => o.fp (fmtOf typ)
            (Fp.decode (fmtOf typ) (elemOf typ sh (x.ph.lane f.a.toNat l).toNat))
            (Fp.decode (fmtOf typ) (elemOf typ sh (x.ph.lane f.b.toNat l).toNat))
            (Fp.decode (fmtOf typ) (elemOf typ sh (x.ph.lane f.c.toNat l).toNat))) ∧
      (f.imm = BitVec.ofNat 32 (4 + typ) → x.rctxKey.isSome = true → x.laneDrawWaits x.ph.rctx.lane = false →
        ∃ s' ph' g, Sys2Proof.Machine.exec (c t p f) s = .next s' ∧ s'.phraseAt t p = some ph' ∧ RegFrame s s' t p ∧
          LanesFlagged x { ph' with ctr := x.ph.ctr } g) ∧
      (f.imm = BitVec.ofNat 32 (4 + typ) → x.rctxKey = none →
        (x.ph.rctx.slot = none → Sys2Proof.Machine.exec (c t p f) s = .next (x.retireFault op 10 0 none)) ∧
        (∀ k, x.ph.rctx.slot = some k →
          Sys2Proof.Machine.exec (c t p f) s = .next ((x.retireFault op 10 0 none).loseSlot k))) ∧
      (f.imm = BitVec.ofNat 32 (4 + typ) → x.rctxKey.isSome = true → x.laneDrawWaits x.ph.rctx.lane = true →
        Sys2Proof.Machine.exec (c t p f) s = .next s)) ∧
  (∀ (s : State) (t p : Nat) (f : Fields) (x : Ctx) (op : BitVec 8) (u : Use) (o : VOp) (c : Nat → Nat → Fields → Instr)
      (typ : Nat), (op, u, o, c) ∈ arithmetic → Runs op u s t p f x → typ = f.imm.toNat % 4 →
      (typ = 3 ∨ (typ = 2 ∧ (o = .div ∨ o = .sqrt)) ∨ (typ = 2 ∧ f.imm.getLsbD 2 = true) ∨
        (f.imm.getLsbD 3 = true ∧ ¬(typ = 2 ∧ (o = .add ∨ o = .sub ∨ o = .mul)))) →
      Sys2Proof.Machine.exec (c t p f) s = .next (x.retireFault op 1 0 none)) ∧
  (∀ (s : State) (k : Nat),
      (k < 16 → s.hasKey (4 + k) = true → s.keyPasses (4 + k) = false → s.agrees (.entry (4 + k)) = true →
        s.loseSlot k =
          { s with sec := { s.sec with store := s.sec.store.filter (fun e => e.k != 4 + k), ksBad := satAdd 8 s.sec.ksBad 1 } }) ∧
      (s.hasKey (4 + k) = false ∨ s.keyPasses (4 + k) = true → s.loseSlot k = s))

/-- Rounding of an exact magnitude m × 2^e to units of 2^u, u above e by k: to nearest it is within half a unit, an exact half going
to the even multiple; a random u16 rounds up where it lies below the 16 leading bits of the discarded fraction (R110, R126). -/
def Obligations.Rounding : Prop :=
  ∀ (x : Exact) (u : Int) (k : Nat), x.more = false → u = x.e + k →
    2 * (x.round u none * 2 ^ k) ≤ 2 * x.m + 2 ^ k ∧ 2 * x.m ≤ 2 * (x.round u none * 2 ^ k) + 2 ^ k ∧
    (2 * (x.round u none * 2 ^ k) = 2 * x.m + 2 ^ k ∨ 2 * x.m = 2 * (x.round u none * 2 ^ k) + 2 ^ k →
      0 < k → x.round u none % 2 = 0) ∧
    ∀ r, x.round u (some r) = x.m / 2 ^ k + (if r < x.m % 2 ^ k * 65536 / 2 ^ k then 1 else 0)

/-- VMIN and VMAX of int32, VSEL, VLANE, VINT and the four forms of VMOV, lane by lane, and of VMIN and VMAX the canonical NaN where
an fp32 input is NaN (R113, R114, R155). VCMP, VPRED and VXS: an inactive bit of VCMP's predicate stays, an active one says
whether the comparison holds, which with a NaN is not-equal's alone; VPRED acts on whole predicates; VXS zero-extends one lane
(R114, R155). VMIN, VMAX and VCMP of fp32 and bf16 elements order numbers by their values, the two by sign where both are 0, which
VCMP takes as equal (R114, R596). A type 3, a comparison above 5, a function of VINT above 5, a code of VMOV or VPRED the table does
not list, and a predicate field above 7 are illegal, cause 1 (R155, R157). -/
def Obligations.LaneResults : Prop :=
  (∀ (s : State) (t p : Nat) (f : Fields) (x : Ctx), x.ph.v.length = 32 →
      (∀ typ, Runs 0x36 { use2 with imm := 0x3 } s t p f x → f.imm = BitVec.ofNat 32 typ → typ ≤ 2 →
        ∃ s' ph' g, Sys2Proof.Machine.exec (.vmin t p f) s = .next s' ∧ s'.phraseAt t p = some ph' ∧ RegFrame s s' t p ∧
          LanesAre x ph' g ∧
          (typ = 2 → ∀ l, (g l).toInt = min (x.ph.lane f.a.toNat l).toInt (x.ph.lane f.b.toNat l).toInt) ∧
          (typ = 0 → ∀ l, (Fp.decode .fp32 (x.ph.lane f.a.toNat l).toNat = .nan ∨
            Fp.decode .fp32 (x.ph.lane f.b.toNat l).toNat = .nan) → g l = 0x7FC00000)) ∧
      (∀ typ, Runs 0x37 { use2 with imm := 0x3 } s t p f x → f.imm = BitVec.ofNat 32 typ → typ ≤ 2 →
        ∃ s' ph' g, Sys2Proof.Machine.exec (.vmax t p f) s = .next s' ∧ s'.phraseAt t p = some ph' ∧ RegFrame s s' t p ∧
          LanesAre x ph' g ∧
          (typ = 2 → ∀ l, (g l).toInt = max (x.ph.lane f.a.toNat l).toInt (x.ph.lane f.b.toNat l).toInt) ∧
          (typ = 0 → ∀ l, (Fp.decode .fp32 (x.ph.lane f.a.toNat l).toNat = .nan ∨
            Fp.decode .fp32 (x.ph.lane f.b.toNat l).toNat = .nan) → g l = 0x7FC00000)) ∧
      (Runs 0x39 { use2 with c := true, imm := 0 } s t p f x → f.c.toNat < 8 →
        ∃ s' ph', Sys2Proof.Machine.exec (.vsel t p f) s = .next s' ∧ s'.phraseAt t p = some ph' ∧ RegFrame s s' t p ∧
          LanesAre x ph' fun l =>
            if (x.ph.rp f.c.toNat).getLsbD l then x.ph.lane f.a.toNat l else x.ph.lane f.b.toNat l) ∧
      (Runs 0x42 { use2 with imm := 0 } s t p f x →
        ∃ s' ph', Sys2Proof.Machine.exec (.vlane t p f) s = .next s' ∧ s'.phraseAt t p = some ph' ∧ RegFrame s s' t p ∧
          LanesAre x ph' fun l => x.ph.lane f.a.toNat ((l + (x.ph.rs f.b).toNat) % 64)) ∧
      (∀ fn, Runs 0x40 { use2 with imm := 0x70 } s t p f x → f.imm = BitVec.ofNat 32 (16 * fn) → fn ≤ 5 →
        ∃ s' ph' g, Sys2Proof.Machine.exec (.vint t p f) s = .next s' ∧ s'.phraseAt t p = some ph' ∧ RegFrame s s' t p ∧
          LanesAre x ph' g ∧ ∀ l i, i < 32 → (g l).getLsbD i =
            (let a := x.ph.lane f.a.toNat l
             let b := x.ph.lane f.b.toNat l
             let n := b.toNat % 32
             match fn with
             | 0 => a.getLsbD i && b.getLsbD i
             | 1 => a.getLsbD i || b.getLsbD i
             | 2 => a.getLsbD i != b.getLsbD i
             | 3 => decide (n ≤ i) && a.getLsbD (i - n)
             | 4 => a.getLsbD (i + n)
             | _ => if i + n < 32 then a.getLsbD (i + n) else a.getLsbD 31)) ∧
      (Runs 0x3F { d := true, a := true, imm := BitVec.allOnes 32, lanewise := true } s t p f x →
        (f.imm = 0 → ∃ s' ph', Sys2Proof.Machine.exec (.vmov t p f) s = .next s' ∧ s'.phraseAt t p = some ph' ∧
          RegFrame s s' t p ∧ LanesAre x ph' fun l => x.ph.lane f.a.toNat l) ∧
        (f.imm = 1 → ∃ s' ph', Sys2Proof.Machine.exec (.vmov t p f) s = .next s' ∧ s'.phraseAt t p = some ph' ∧
          RegFrame s s' t p ∧ LanesAre x ph' fun _ => (x.ph.rs f.a).setWidth 32) ∧
        (f.imm = 2 → f.a = 0 → ∃ s' ph', Sys2Proof.Machine.exec (.vmov t p f) s = .next s' ∧ s'.phraseAt t p = some ph' ∧
          RegFrame s s' t p ∧ LanesAre x ph' fun l => BitVec.ofNat 32 (x.ph.base + l)) ∧
        (∀ k : BitVec 24, f.imm = k ++ (3 : BitVec 8) → f.a = 0 →
          ∃ s' ph', Sys2Proof.Machine.exec (.vmov t p f) s = .next s' ∧ s'.phraseAt t p = some ph' ∧
            RegFrame s s' t p ∧ LanesAre x ph' fun _ => k.signExtend 32))) ∧
  (∀ (s : State) (t p : Nat) (f : Fields) (x : Ctx), x.ph.p.length = 8 → x.ph.s.length = 32 →
      (∀ typ code, Runs 0x38 { use2 with imm := 0x73 } s t p f x → f.imm = BitVec.ofNat 32 (typ + 16 * code) → typ ≤ 2 →
        code ≤ 5 → f.d.toNat < 8 →
        ∃ s' ph', Sys2Proof.Machine.exec (.vcmp t p f) s = .next s' ∧ s'.phraseAt t p = some ph' ∧ RegFrame s s' t p ∧
          ph' = { x.ph.advance with p := ph'.p } ∧ (∀ i, i ≠ f.d.toNat → ph'.rp i = x.ph.rp i) ∧
          (∀ l, l < 64 → (x.ph.active f).getLsbD l = false → (ph'.rp f.d.toNat).getLsbD l = (x.ph.rp f.d.toNat).getLsbD l) ∧
          (f.d = 0 → ph'.p = x.ph.p) ∧
          (∀ l, l < 64 → f.d ≠ 0 → (x.ph.active f).getLsbD l = true → typ = 2 → (ph'.rp f.d.toNat).getLsbD l =
            (let a := (x.ph.lane f.a.toNat l).toInt
             let b := (x.ph.lane f.b.toNat l).toInt
             match code with
             | 0 => decide (a = b)
             | 1 => decide (a ≠ b)
             | 2 => decide (a < b)
             | 3 => decide (a ≤ b)
             | 4 => decide (b < a)
             | _ => decide (b ≤ a))) ∧
          (∀ l, l < 64 → f.d ≠ 0 → (x.ph.active f).getLsbD l = true → typ = 0 →
            (Fp.decode .fp32 (x.ph.lane f.a.toNat l).toNat = .nan ∨ Fp.decode .fp32 (x.ph.lane f.b.toNat l).toNat = .nan) →
            (ph'.rp f.d.toNat).getLsbD l = decide (code = 1))) ∧
      (∀ k r, Runs 0x41 { d := true, a := true, b := true, imm := 0x7 } s t p f x → f.imm = BitVec.ofNat 32 k →
        f.a.toNat < 8 ∨ k = 4 → f.d.toNat < 8 ∨ k = 5 → (if k < 4 then f.b.toNat < 8 else f.b = 0 ∧ k ≤ 5) →
        r = (match k with
          | 0 => x.ph.rp f.a.toNat &&& x.ph.rp f.b.toNat
          | 1 => x.ph.rp f.a.toNat ||| x.ph.rp f.b.toNat
          | 2 => x.ph.rp f.a.toNat ^^^ x.ph.rp f.b.toNat
          | 3 => x.ph.rp f.a.toNat &&& ~~~(x.ph.rp f.b.toNat)
          | 4 => x.ph.rs f.a
          | _ => x.ph.rp f.a.toNat) →
        ∃ s', Sys2Proof.Machine.exec (.vpred t p f) s = .next s' ∧ RegFrame s s' t p ∧
          s'.phraseAt t p = some ((if k = 5 then x.ph.ws f.d r else x.ph.wp f.d.toNat r).advance)) ∧
      (Runs 0x43 { d := true, a := true, b := true } s t p f x →
        ∃ s', Sys2Proof.Machine.exec (.vxs t p f) s = .next s' ∧ RegFrame s s' t p ∧
          s'.phraseAt t p =
            some (x.ph.ws f.d ((x.ph.lane f.a.toNat ((x.ph.rs f.b).toNat % 64)).setWidth 64)).advance)) ∧
  (∀ (s s' : State) (t p : Nat) (f : Fields) (x : Ctx) (ph' : Phrase) (op : BitVec 8) (want : Bool) (c : Nat → Nat → Fields → Instr)
      (typ l sh : Nat) (a b : Fp), (op = 0x36 ∧ want = false ∧ c = .vmin) ∨ (op = 0x37 ∧ want = true ∧ c = .vmax) →
      Runs op { use2 with imm := 0x3 } s t p f x → x.ph.v.length = 32 → f.imm = BitVec.ofNat 32 typ →
      Sys2Proof.Machine.exec (c t p f) s = .next s' → s'.phraseAt t p = some ph' → l < 64 → (x.ph.active f).getLsbD l = true →
      (typ = 0 ∧ sh = 0 ∨ typ = 1 ∧ (sh = 0 ∨ sh = 16)) →
      a = Fp.decode (fmtOf typ) (elemOf typ sh (x.ph.lane f.a.toNat l).toNat) →
      b = Fp.decode (fmtOf typ) (elemOf typ sh (x.ph.lane f.b.toNat l).toNat) →
      ((a = .nan ∨ b = .nan) → elemOf typ sh (ph'.lane f.d.toNat l).toNat = fpNaN (fmtOf typ)) ∧
      (∀ n, a = .inf n → b ≠ .nan → elemOf typ sh (ph'.lane f.d.toNat l).toNat =
        elemOf typ sh (if n = want then (x.ph.lane f.b.toNat l).toNat else (x.ph.lane f.a.toNat l).toNat)) ∧
      (∀ n, b = .inf n → a ≠ .nan → elemOf typ sh (ph'.lane f.d.toNat l).toNat =
        elemOf typ sh (if n = want then (x.ph.lane f.a.toNat l).toNat else (x.ph.lane f.b.toNat l).toNat)) ∧
      (∀ (na nb : Bool) (ma mb i j : Nat) (ea eb q v w : Int), a = .fin na ma ea → b = .fin nb mb eb → ea = q + i → eb = q + j →
        v = (if na then -1 else 1) * ma * 2 ^ i → w = (if nb then -1 else 1) * mb * 2 ^ j →
        elemOf typ sh (ph'.lane f.d.toNat l).toNat =
          elemOf typ sh (if v < w ∨ v = w ∧ na = true then
              (if want then (x.ph.lane f.b.toNat l).toNat else (x.ph.lane f.a.toNat l).toNat)
            else (if want then (x.ph.lane f.a.toNat l).toNat else (x.ph.lane f.b.toNat l).toNat)))) ∧
  (∀ (s s' : State) (t p : Nat) (f : Fields) (x : Ctx) (ph' : Phrase) (typ code l : Nat) (na nb : Bool) (ma mb i j : Nat)
      (ea eb q v w : Int), Runs 0x38 { use2 with imm := 0x73 } s t p f x → x.ph.p.length = 8 →
      f.imm = BitVec.ofNat 32 (typ + 16 * code) → typ ≤ 1 → code ≤ 5 → f.d.toNat < 8 → f.d ≠ 0 →
      Sys2Proof.Machine.exec (.vcmp t p f) s = .next s' → s'.phraseAt t p = some ph' → l < 64 → (x.ph.active f).getLsbD l = true →
      Fp.decode (fmtOf typ) (elemOf typ 0 (x.ph.lane f.a.toNat l).toNat) = .fin na ma ea →
      Fp.decode (fmtOf typ) (elemOf typ 0 (x.ph.lane f.b.toNat l).toNat) = .fin nb mb eb → ea = q + i → eb = q + j →
      v = (if na then -1 else 1) * ma * 2 ^ i → w = (if nb then -1 else 1) * mb * 2 ^ j →
      (ph'.rp f.d.toNat).getLsbD l = (match code with
        | 0 => decide (v = w)
        | 1 => decide (v ≠ w)
        | 2 => decide (v < w)
        | 3 => decide (v ≤ w)
        | 4 => decide (w < v)
        | _ => decide (w ≤ v))) ∧
  (∀ (s : State) (t p : Nat) (f : Fields) (x : Ctx),
      (Runs 0x36 { use2 with imm := 0x3 } s t p f x → f.imm = 3 →
        Sys2Proof.Machine.exec (.vmin t p f) s = .next (x.retireFault 0x36 1 0 none)) ∧
      (Runs 0x37 { use2 with imm := 0x3 } s t p f x → f.imm = 3 →
        Sys2Proof.Machine.exec (.vmax t p f) s = .next (x.retireFault 0x37 1 0 none)) ∧
      (Runs 0x38 { use2 with imm := 0x73 } s t p f x →
        (f.imm.extractLsb' 0 2 = 3 ∨ 6 ≤ (f.imm.extractLsb' 4 3).toNat ∨ 8 ≤ f.d.toNat) →
        Sys2Proof.Machine.exec (.vcmp t p f) s = .next (x.retireFault 0x38 1 0 none)) ∧
      (Runs 0x39 { use2 with c := true, imm := 0 } s t p f x → 8 ≤ f.c.toNat →
        Sys2Proof.Machine.exec (.vsel t p f) s = .next (x.retireFault 0x39 1 0 none)) ∧
      (Runs 0x3F { d := true, a := true, imm := BitVec.allOnes 32, lanewise := true } s t p f x →
        ((∃ i, 3 ≤ i ∧ i < 8 ∧ f.imm.getLsbD i = true) ∨ 4 ≤ (f.imm.extractLsb' 0 3).toNat ∨
          (2 ≤ (f.imm.extractLsb' 0 3).toNat ∧ f.a ≠ 0) ∨
          ((f.imm.extractLsb' 0 3).toNat ≤ 2 ∧ f.imm.extractLsb' 8 24 ≠ 0)) →
        Sys2Proof.Machine.exec (.vmov t p f) s = .next (x.retireFault 0x3F 1 0 none)) ∧
      (Runs 0x40 { use2 with imm := 0x70 } s t p f x → 6 ≤ (f.imm.extractLsb' 4 3).toNat →
        Sys2Proof.Machine.exec (.vint t p f) s = .next (x.retireFault 0x40 1 0 none)) ∧
      (Runs 0x41 { d := true, a := true, b := true, imm := 0x7 } s t p f x →
        (5 < f.imm.toNat ∨ (f.imm.toNat ≠ 5 ∧ 8 ≤ f.d.toNat) ∨ (f.imm.toNat ≠ 4 ∧ 8 ≤ f.a.toNat) ∨
          (f.imm.toNat ≤ 3 ∧ 8 ≤ f.b.toNat) ∨ (4 ≤ f.imm.toNat ∧ f.b ≠ 0)) →
        Sys2Proof.Machine.exec (.vpred t p f) s = .next (x.retireFault 0x41 1 0 none)))

/-- VCVT between the types the table lists and VTRN of a listed function: each active lane takes the function's value, inactive
lanes stay; stochastic rounding in element mode rounds each lane by the block at its own position. A conversion to fp is x × 2^s
rounded once, one to an integer the nearest integer to it, clamped with sat, 0 with invalid for a NaN and an end of the range for
an infinity (R116, R117, R164, R169). The special cases of VTRN (R165). VBX writes 64 mantissas, x × 2^-e rounded and clamped, and
the two block exponents, and reports the largest exponent of a block that is no NaN block; a NaN block is the exponent 0x80 with
mantissas of 0; a clamp of an exponent to -127 sets sat (log entry 91); VUBX reads the blocks back, every element of a NaN block
as NaN; no other byte of memory changes (R116, R118, R119, R120). A block's exponent is t - 6 or t - 2 of its largest magnitude,
between -127 and 127 (R118). A conversion the table does not list, and a type or a function of VTRN beyond it, are illegal, cause 1
(R116, R155, R164); mantissas or exponents outside the clause's SRAM raise the memory fault, cause 3 (R160); VCVT and VBX with
stochastic rounding raise the random fault, cause 10, without a granted key, and wait while the phrase's own run draws in lane mode
(R170, R289). -/
def Obligations.Conversions : Prop :=
  (∀ (s : State) (t p : Nat) (f : Fields) (x : Ctx), x.ph.v.length = 32 →
      (∀ frm dest sc key, Runs 0x3A { d := true, a := true, imm := 0x00FF01FF, lanewise := true } s t p f x →
        frm = f.imm.toNat % 16 → dest = f.imm.toNat / 16 % 16 → sc = signed 8 (f.imm.toNat / 2 ^ 16) → cvtOk frm dest = true →
        (f.imm.getLsbD 8 = true → x.rctxKey.isSome = true ∧ x.laneDrawWaits x.ph.rctx.lane = false) →
        key = (if f.imm.getLsbD 8 then x.rctxKey else none) →
        ∃ s' ph' g, Sys2Proof.Machine.exec (.vcvt t p f) s = .next s' ∧ s'.phraseAt t p = some ph' ∧ RegFrame s s' t p ∧
          LanesFlagged x { ph' with ctr := x.ph.ctr } g ∧
          (f.imm.getLsbD 8 = false ∨ x.ph.rctx.lane = false → ph'.ctr = x.ph.ctr) ∧
          ∀ l, l < 64 → (x.ph.active f).getLsbD l = true →
            ∃ d, (f.imm.getLsbD 8 = false ∨ x.ph.rctx.lane = false → d = x.ph.draws) ∧
              g l = BitVec.ofNat 32 (cvtLane x key frm dest sc l (x.ph.lane f.a.toNat l).toNat d).1 ∧
              ph'.vflags &&& (cvtLane x key frm dest sc l (x.ph.lane f.a.toNat l).toNat d).2.1 =
                (cvtLane x key frm dest sc l (x.ph.lane f.a.toNat l).toNat d).2.1) ∧
      (∀ typ sel, Runs 0x3E { d := true, a := true, imm := 0x73, lanewise := true } s t p f x →
        f.imm = BitVec.ofNat 32 (typ + 16 * sel) → typ ≤ 1 → sel < 7 →
        ∃ s' ph', Sys2Proof.Machine.exec (.vtrn t p f) s = .next s' ∧ s'.phraseAt t p = some ph' ∧ RegFrame s s' t p ∧
          LanesFlagged x ph' fun l => nearestLane typ fun sh =>
            transcend sel (fmtOf typ) (Fp.decode (fmtOf typ) (elemOf typ sh (x.ph.lane f.a.toNat l).toNat)))) ∧
  (∀ (x : Ctx) (frm dest l v : Nat) (sc : Int) (d : Draws) (src : Fp), cvtOk frm dest = true →
      src = (if frm < 2 then Fp.decode (fmtOf frm) (elemOf frm 0 v)
        else .fin (decide (signed (intBits frm) v < 0)) (signed (intBits frm) v).natAbs 0) →
      (dest < 2 → BitVec.ofNat 32 (cvtLane x none frm dest sc l v d).1 = nearest (fmtOf dest) (fpScale (fmtOf dest) sc src)) ∧
      (2 ≤ dest → src = .nan → cvtLane x none frm dest sc l v d = (0, 4, d)) ∧
      (∀ n, 2 ≤ dest → src = .inf n → cvtLane x none frm dest sc l v d =
        (unsigned 32 (if n then -2 ^ (intBits dest - 1) else 2 ^ (intBits dest - 1) - 1), 8, d)) ∧
      (∀ n m e k i, 2 ≤ dest → src = .fin n m e → k = ({ neg := n, m := m, e := e + sc, more := false } : Exact).round 0 none →
        i = (if n then -(k : Int) else k) →
        (cvtLane x none frm dest sc l v d).1 =
          unsigned 32 (max (-2 ^ (intBits dest - 1)) (min (2 ^ (intBits dest - 1) - 1) i)) ∧
        ((cvtLane x none frm dest sc l v d).2.1 =
          if -2 ^ (intBits dest - 1) ≤ i ∧ i ≤ 2 ^ (intBits dest - 1) - 1 then 0 else 8))) ∧
  (∀ (fmt : Fmt) (sel : Nat) (n : Bool) (m : Nat) (e : Int),
      (sel = 0 ∨ sel = 2 → transcend sel fmt (.inf true) = .done (fpZero fmt false) 0 ∧
        transcend sel fmt (.inf false) = .done (fpInf fmt false) 0) ∧
      (sel = 1 ∨ sel = 3 → transcend sel fmt (.fin n 0 e) = .done (fpInf fmt true) 0 ∧
        transcend sel fmt (.inf false) = .done (fpInf fmt false) 0 ∧ transcend sel fmt (.inf true) = .done (fpNaN fmt) 4 ∧
        (0 < m → transcend sel fmt (.fin true m e) = .done (fpNaN fmt) 4)) ∧
      (sel = 4 → transcend sel fmt (.inf true) = .done (fpZero fmt false) 0 ∧ transcend sel fmt (.inf false) = .value exactOne) ∧
      (sel = 5 → transcend sel fmt (.inf n) = .value { exactOne with neg := n }) ∧
      (sel = 6 → transcend sel fmt (.fin n 0 e) = .done (fpInf fmt n) 0 ∧
        transcend sel fmt (.inf false) = .done (fpZero fmt false) 0 ∧ transcend sel fmt (.inf true) = .done (fpNaN fmt) 4 ∧
        (0 < m → transcend sel fmt (.fin true m e) = .done (fpNaN fmt) 4)) ∧
      transcend sel fmt .nan = .done (fpNaN fmt) 0) ∧
  (∀ (s : State) (t p : Nat) (f : Fields) (x : Ctx) (bx4 : Bool) (typ n : Nat),
      bx4 = f.imm.getLsbD 0 → typ = (if f.imm.getLsbD 1 then 1 else 0) → n = (if bx4 then 32 else 64) → x.ph.s.length = 32 →
      x.ph.v.length = 32 →
      (∀ (el : List Fp) (ex : Nat → Option Int),
        Runs 0x3B { d := true, a := true, b := true, c := true, imm := 0x7, lanewise := true } s t p f x →
        (f.imm.getLsbD 2 = true → x.rctxKey.isSome = true ∧ x.laneDrawWaits x.ph.rctx.lane = false) →
        x.sramOk (x.ph.rs f.b).toNat n 1 = true → x.sramOk (x.ph.rs f.c).toNat 2 1 = true →
        el = ((List.range 64).map fun l =>
          if (x.ph.active f).getLsbD l then Fp.decode (fmtOf typ) (elemOf typ 0 (x.ph.lane f.a.toNat l).toNat)
          else .fin false 0 0) →
        (∀ j, ex j = blockExp bx4 ((el.drop (32 * j)).take 32)) →
        ∃ s' ph', Sys2Proof.Machine.exec (.vbx t p f) s = .next s' ∧ s'.phraseAt t p = some ph' ∧ ph'.pc = x.ph.advance.pc ∧
          ph'.v = x.ph.v ∧ s'.hbm = s.hbm ∧
          ph'.vflags = x.ph.vflags ||| (if blockLow bx4 (el.take 32) || blockLow bx4 (el.drop 32) then 8 else 0) ∧
          (f.d ≠ 0 → ph'.rs f.d = BitVec.ofInt 64 (max ((ex 0).getD (-127)) (max ((ex 1).getD (-127)) (-127)))) ∧
          (∀ u o, (∀ i, i < n →
              ¬(x.cr.members.getD (((x.ph.rs f.b).toNat + i) / sramSize) 0 = u ∧ ((x.ph.rs f.b).toNat + i) % sramSize = o)) →
            (∀ i, i < 2 →
              ¬(x.cr.members.getD (((x.ph.rs f.c).toNat + i) / sramSize) 0 = u ∧ ((x.ph.rs f.c).toNat + i) % sramSize = o)) →
            s'.sramByte u o = s.sramByte u o) ∧
          (x.cr.members.Nodup → (∀ u ∈ x.cr.members, u < s.tiles.length) → (∀ u, (s.tile u).sram.Wf) →
            (x.ph.rs f.b).toNat + n ≤ (x.ph.rs f.c).toNat ∨ (x.ph.rs f.c).toNat + 2 ≤ (x.ph.rs f.b).toNat →
            (∀ j, j < 2 → signed 8 (byteAt (s'.sramRead x.cr.members (x.ph.rs f.c).toNat 2) j) = (ex j).getD (-128)) ∧
            (∀ l, l < 64 → ex (l / 32) = none →
              unpackMant bx4 (s'.sramRead x.cr.members (x.ph.rs f.b).toNat n) l = 0) ∧
            ∀ l e neg m q, l < 64 → ex (l / 32) = some e → el[l]? = some (.fin neg m q) →
              ∃ r k, (f.imm.getLsbD 2 = false → r = none) ∧
                k = ({ neg := neg, m := m, e := q - e, more := false } : Exact).round 0 r ∧
                unpackMant bx4 (s'.sramRead x.cr.members (x.ph.rs f.b).toNat n) l =
                  max (if bx4 then -8 else -128) (min (if bx4 then 7 else 127) (if neg then -(k : Int) else k)))) ∧
      (Runs 0x3C { use2 with imm := 0x3 } s t p f x → x.sramOk (x.ph.rs f.a).toNat n 1 = true →
        x.sramOk (x.ph.rs f.b).toNat 2 1 = true →
        ∃ s' ph', Sys2Proof.Machine.exec (.vubx t p f) s = .next s' ∧ s'.phraseAt t p = some ph' ∧ RegFrame s s' t p ∧
          LanesFlagged x ph' fun l =>
            if signed 8 (byteAt (x.load (x.ph.rs f.b).toNat 2) (l / 32)) = -128 then BitVec.ofNat 32 (fpNaN (fmtOf typ))
            else nearest (fmtOf typ) (.value {
              neg := decide (unpackMant bx4 (x.load (x.ph.rs f.a).toNat n) l < 0)
              m := (unpackMant bx4 (x.load (x.ph.rs f.a).toNat n) l).natAbs
              e := signed 8 (byteAt (x.load (x.ph.rs f.b).toNat 2) (l / 32)), more := false }))) ∧
  (∀ (bx4 : Bool) (l : List Fp) (k : Int), k = (if bx4 then 2 else 6) →
      ((∃ v ∈ l, v = .nan ∨ ∃ n, v = .inf n) → blockExp bx4 l = none) ∧
      ((∀ v ∈ l, ∃ n m e, v = .fin n m e) → ∃ b, blockExp bx4 l = some b ∧ -127 ≤ b ∧ b ≤ 127 ∧
        (∀ n m e, .fin n m e ∈ l → m ≠ 0 → min 127 (e + (Nat.log2 m : Nat) - k) ≤ b) ∧
        (b ≠ -127 → ∃ n m e, .fin n m e ∈ l ∧ m ≠ 0 ∧ b = min 127 (e + (Nat.log2 m : Nat) - k)))) ∧
  (∀ (s : State) (t p : Nat) (f : Fields) (x : Ctx) (n : Nat), n = (if f.imm.getLsbD 0 then 32 else 64) →
      (Runs 0x3A { d := true, a := true, imm := 0x00FF01FF, lanewise := true } s t p f x →
        cvtOk (f.imm.toNat % 16) (f.imm.toNat / 16 % 16) = false →
        Sys2Proof.Machine.exec (.vcvt t p f) s = .next (x.retireFault 0x3A 1 0 none)) ∧
      (Runs 0x3E { d := true, a := true, imm := 0x73, lanewise := true } s t p f x →
        (2 ≤ f.imm.toNat % 4 ∨ f.imm.toNat / 16 % 8 = 7) →
        Sys2Proof.Machine.exec (.vtrn t p f) s = .next (x.retireFault 0x3E 1 0 none)) ∧
      (∀ op u c, (op, u, c) ∈ [((0x3A : BitVec 8), ({ d := true, a := true, imm := 0x00FF01FF, lanewise := true } : Use), Instr.vcvt),
          (0x3B, { d := true, a := true, b := true, c := true, imm := 0x7, lanewise := true }, Instr.vbx)] →
        Runs op u s t p f x → (if op = 0x3A then f.imm.getLsbD 8 = true ∧
          cvtOk (f.imm.toNat % 16) (f.imm.toNat / 16 % 16) = true else f.imm.getLsbD 2 = true) →
        (x.rctxKey = none → x.ph.rctx.slot = none →
          Sys2Proof.Machine.exec (c t p f) s = .next (x.retireFault op 10 0 none)) ∧
        (∀ k, x.rctxKey = none → x.ph.rctx.slot = some k →
          Sys2Proof.Machine.exec (c t p f) s = .next ((x.retireFault op 10 0 none).loseSlot k)) ∧
        (x.rctxKey.isSome = true → x.laneDrawWaits x.ph.rctx.lane = true → Sys2Proof.Machine.exec (c t p f) s = .next s)) ∧
      (Runs 0x3B { d := true, a := true, b := true, c := true, imm := 0x7, lanewise := true } s t p f x →
        (f.imm.getLsbD 2 = true → x.rctxKey.isSome = true ∧ x.laneDrawWaits x.ph.rctx.lane = false) →
        (x.sramOk (x.ph.rs f.b).toNat n 1 = false →
          Sys2Proof.Machine.exec (.vbx t p f) s = .next (x.retireFault 0x3B 3 (x.ph.rs f.b) none)) ∧
        (x.sramOk (x.ph.rs f.b).toNat n 1 = true → x.sramOk (x.ph.rs f.c).toNat 2 1 = false →
          Sys2Proof.Machine.exec (.vbx t p f) s = .next (x.retireFault 0x3B 3 (x.ph.rs f.c) none))) ∧
      (Runs 0x3C { use2 with imm := 0x3 } s t p f x →
        (x.sramOk (x.ph.rs f.a).toNat n 1 = false →
          Sys2Proof.Machine.exec (.vubx t p f) s = .next (x.retireFault 0x3C 3 (x.ph.rs f.a) none)) ∧
        (x.sramOk (x.ph.rs f.a).toNat n 1 = true → x.sramOk (x.ph.rs f.b).toNat 2 1 = false →
          Sys2Proof.Machine.exec (.vubx t p f) s = .next (x.retireFault 0x3C 3 (x.ph.rs f.b) none))))

/-- VRED: of registers or of SRAM, a sum into s[d], or an extreme into s[d] with its lowest index in s[c] (R121 to R125, R163).
Integer reductions: the sum in int64 clamped once, with sat where it clamps; the extreme value with the lowest index that
attains it; 0, and the identities with an index of all ones, where there is no element (R124, R125). Floating reductions: the sum
is R121's tree of fp32 additions, a bf16 element taken exactly as fp32, and -0.0 where there is no element; the extreme is
the first element that no other passes, -0.0 below +0.0, or the canonical NaN with the first NaN's index, and an infinity where there
is no element (R121, R122, R124). A count above 16777216, or beyond the registers, raises the vector-operand fault, cause 14 (R163),
elements misaligned or outside the clause's SRAM the memory fault, cause 3 (R160); a type or a reduction 3, and an index register
named for a sum, are illegal, cause 1 (R155). -/
def Obligations.Reductions : Prop :=
  (∀ (s : State) (t p : Nat) (f : Fields) (x : Ctx) (typ red n : Nat) (raw : List Nat),
      Runs 0x3D { d := true, a := true, b := true, c := true, imm := 0x133 } s t p f x →
      typ = f.imm.toNat % 4 → red = f.imm.toNat / 16 % 4 → typ ≠ 3 → red ≠ 3 → (red = 0 → f.c = 0) →
      n = (x.ph.rs f.b).toNat % 2 ^ 32 → n ≤ 16777216 →
      (if f.imm.getLsbD 8 then n ≤ 64 * (32 - f.a.toNat) ∧
          raw = (List.range n).map fun i => (x.ph.lane (f.a.toNat + i / 64) (i % 64)).toNat
        else (n = 0 ∨ x.sramOk (x.ph.rs f.a).toNat (n * (if typ = 1 then 2 else 4)) (if typ = 1 then 2 else 4) = true) ∧
          raw = (List.range n).map fun i => leNat
            (((x.load (x.ph.rs f.a).toNat (n * (if typ = 1 then 2 else 4))).drop ((if typ = 1 then 2 else 4) * i)).take
              (if typ = 1 then 2 else 4))) →
      ∃ s', Sys2Proof.Machine.exec (.vred t p f) s = .next s' ∧ RegFrame s s' t p ∧
        s'.phraseAt t p = some
          { (if red = 0 then x.ph.ws f.d (reduceRow typ red raw).1
             else (x.ph.ws f.d (reduceRow typ red raw).1).ws f.c (reduceRow typ red raw).2.1).advance with
            vflags := x.ph.vflags ||| (reduceRow typ red raw).2.2 }) ∧
  (∀ (raw : List Nat) (v : List Int), v = raw.map (signed 32) → raw.length ≤ 16777216 →
      (reduceRow 2 0 raw).1.toInt = max (-2147483648) (min 2147483647 v.sum) ∧
      ((reduceRow 2 0 raw).2.2 = if -2147483648 ≤ v.sum ∧ v.sum ≤ 2147483647 then 0 else 8) ∧
      (∀ i m, v[i]? = some m → (∀ x ∈ v, x ≤ m) → (∀ j, j < i → v[j]? ≠ some m) →
        (reduceRow 2 1 raw).1.toInt = m ∧ (reduceRow 2 1 raw).2.1.toNat = i) ∧
      (∀ i m, v[i]? = some m → (∀ x ∈ v, m ≤ x) → (∀ j, j < i → v[j]? ≠ some m) →
        (reduceRow 2 2 raw).1.toInt = m ∧ (reduceRow 2 2 raw).2.1.toNat = i) ∧
      (raw = [] → (reduceRow 2 1 raw).1.toInt = -2147483648 ∧ (reduceRow 2 2 raw).1.toInt = 2147483647 ∧
        (reduceRow 2 1 raw).2.1 = BitVec.allOnes 64 ∧ (reduceRow 2 2 raw).2.1 = BitVec.allOnes 64)) ∧
  (∃ tree : List Nat → Nat,
    (∀ v, Fp.decode .fp32 v ≠ .nan → tree [v] = v) ∧ (∀ v, Fp.decode .fp32 v = .nan → tree [v] = fpNaN .fp32) ∧
    (∀ l : List Nat, 2 ≤ l.length → l.length ≤ 16777216 →
      tree l = tree ((List.range ((l.length + 1) / 2)).map fun k =>
        if 2 * k + 1 < l.length then
          (nearest .fp32 (fpAdd .fp32 (Fp.decode .fp32 (l.getD (2 * k) 0)) (Fp.decode .fp32 (l.getD (2 * k + 1) 0)))).toNat
        else l.getD (2 * k) 0)) ∧
    ∀ (typ : Nat) (raw v : List Nat), typ ≤ 1 → raw.length ≤ 16777216 → (∀ r ∈ raw, r < 2 ^ 32) →
      v = (if typ = 1 then raw.map (fun r => r % 2 ^ 16 * 2 ^ 16) else raw) →
      (raw ≠ [] → (reduceRow typ 0 raw).1.toNat = tree v) ∧
      (raw = [] → (reduceRow typ 0 raw).1 = 0x80000000 ∧ (reduceRow typ 1 raw).1 = 0xFF800000 ∧
        (reduceRow typ 2 raw).1 = 0x7F800000 ∧ (reduceRow typ 1 raw).2.1 = BitVec.allOnes 64 ∧
        (reduceRow typ 2 raw).2.1 = BitVec.allOnes 64) ∧
      ∀ red i y, red = 1 ∨ red = 2 → v[i]? = some y →
        (Fp.decode .fp32 y = .nan → (∀ j z, j < i → v[j]? = some z → Fp.decode .fp32 z ≠ .nan) →
          (reduceRow typ red raw).1.toNat = fpNaN .fp32 ∧ (reduceRow typ red raw).2.1.toNat = i) ∧
        ((∀ j z, v[j]? = some z → Fp.decode .fp32 z ≠ .nan ∧
            (if red = 1 then fpBelow (Fp.decode .fp32 y) (Fp.decode .fp32 z) else
              fpBelow (Fp.decode .fp32 z) (Fp.decode .fp32 y)) = false ∧ (j < i → z ≠ y)) →
          (reduceRow typ red raw).1.toNat = y ∧ (reduceRow typ red raw).2.1.toNat = i)) ∧
  (∀ (s : State) (t p : Nat) (f : Fields) (x : Ctx) (typ red n w : Nat),
      Runs 0x3D { d := true, a := true, b := true, c := true, imm := 0x133 } s t p f x → typ = f.imm.toNat % 4 →
      red = f.imm.toNat / 16 % 4 → n = (x.ph.rs f.b).toNat % 2 ^ 32 → w = (if typ = 1 then 2 else 4) →
      ((typ = 3 ∨ red = 3 ∨ (red = 0 ∧ f.c ≠ 0)) →
        Sys2Proof.Machine.exec (.vred t p f) s = .next (x.retireFault 0x3D 1 0 none)) ∧
      (typ ≠ 3 → red ≠ 3 → (red = 0 → f.c = 0) →
        (16777216 < n ∨ (f.imm.getLsbD 8 = true ∧ 64 * (32 - f.a.toNat) < n) →
          Sys2Proof.Machine.exec (.vred t p f) s = .next (x.retireFault 0x3D 14 0 none)) ∧
        (0 < n → n ≤ 16777216 → f.imm.getLsbD 8 = false → x.sramOk (x.ph.rs f.a).toNat (n * w) w = false →
          Sys2Proof.Machine.exec (.vred t p f) s = .next (x.retireFault 0x3D 3 (x.ph.rs f.a) none))))

/-! ## The osier array, randomness, stops and folds (05 to 08, 10) -/

/-- OSEL and ORUN put a run in progress that has captured the phrase's rounding context; an ORUN of 0 rounds completes at once with
no effect; while a run is in progress OSEL and ORUN wait; without an OSIER record, or with POLICY.det 1, they raise the osier
fault, and so do a strand beyond the record's, loose rounds with L 0 or above POLICY.max_loose, and free-run that POLICY does not
allow (R166, R167, R195, R197, R213, R288). With anchors and no granted key they raise the random fault (R170, R210). They wait for
a stale or a running calibration and raise the osier fault after a failed one, but a free-run runs on either where POLICY.stale_cal
says so (R213); a kind 3 is illegal, cause 1 (R155). -/
def Obligations.OsierRuns : Prop :=
  ∀ (s : State) (t p : Nat) (f : Fields) (x : Ctx),
    (Runs 0x50 { imm := 0x7 } s t p f x → x.T.os.run = none → x.T.os.present = true → x.s.policy.det ≠ 1 →
      f.imm.toNat < x.T.os.strandCount → (x.T.os.hasAnchors = true → x.rctxKey.isSome = true) → x.T.cal.cal = 0 →
      ∃ s' r, Sys2Proof.Machine.exec (.osel t p f) s = .next s' ∧ s'.phraseAt t p = some x.ph.advance ∧
        (s'.tile t).os = { x.T.os with kind := 3, run := some r } ∧ r.kind = 3 ∧ r.slot = p ∧ r.strand = f.imm.toNat ∧
        r.inPhase = false ∧ r.ctx = x.ph.rctx ∧ s'.hbm = s.hbm) ∧
    (∀ n kind, Runs 0x51 { a := true, imm := 0x1F3 } s t p f x → kind = f.imm.toNat % 4 → kind ≤ 2 →
      n = (x.ph.rs f.a).toNat % 2 ^ 32 →
      (n = 0 → Sys2Proof.Machine.exec (.orun t p f) s = .next (x.retire 0x51 s (some x.ph.advance) 0)) ∧
      (0 < n → x.T.os.run.isSome = true → Sys2Proof.Machine.exec (.orun t p f) s = .next s) ∧
      (0 < n → x.T.os.run = none → x.T.os.present = true → x.s.policy.det ≠ 1 →
        (kind = 1 → f.imm.toNat / 16 % 16 ≠ 0 ∧ f.imm.toNat / 16 % 16 ≤ x.s.policy.maxLoose) →
        (kind = 2 → x.s.policy.freeRun ≠ 0) → (x.T.os.hasAnchors = true → x.rctxKey.isSome = true) → x.T.cal.cal = 0 →
        ∃ s' r, Sys2Proof.Machine.exec (.orun t p f) s = .next s' ∧ s'.phraseAt t p = some x.ph.advance ∧
          (s'.tile t).os.run = some r ∧ r.kind = kind ∧ r.slot = p ∧ r.strand = 0 ∧ r.inPhase = false ∧ r.rounds = n ∧
          r.ctx = x.ph.rctx ∧ (s'.tile t).os.rounds = 0 ∧ (s'.tile t).os.st = x.T.os.st ∧ s'.hbm = s.hbm) ∧
      (0 < n → x.T.os.run = none → (x.T.os.present = false ∨ x.s.policy.det = 1) →
        Sys2Proof.Machine.exec (.orun t p f) s = .next (x.retireFault 0x51 8 0 none))) ∧
    (∀ c kind, (c = Instr.osel t p f ∧ kind = 3 ∧ Runs 0x50 { imm := 0x7 } s t p f x ∧ f.imm.toNat < x.T.os.strandCount ∨
        c = .orun t p f ∧ kind = f.imm.toNat % 4 ∧ kind ≤ 2 ∧ Runs 0x51 { a := true, imm := 0x1F3 } s t p f x ∧
          (x.ph.rs f.a).toNat % 2 ^ 32 ≠ 0 ∧
          (kind = 1 → f.imm.toNat / 16 % 16 ≠ 0 ∧ f.imm.toNat / 16 % 16 ≤ x.s.policy.maxLoose) ∧
          (kind = 2 → x.s.policy.freeRun ≠ 0)) →
      x.T.os.run = none → x.T.os.present = true → x.s.policy.det ≠ 1 →
      (x.T.os.hasAnchors = true → x.rctxKey = none →
        (x.ph.rctx.slot = none →
          Sys2Proof.Machine.exec c s = .next (x.retireFault (if kind = 3 then 0x50 else 0x51) 10 0 none)) ∧
        ∀ k, x.ph.rctx.slot = some k →
          Sys2Proof.Machine.exec c s = .next ((x.retireFault (if kind = 3 then 0x50 else 0x51) 10 0 none).loseSlot k)) ∧
      ((x.T.os.hasAnchors = true → x.rctxKey.isSome = true) →
        (x.T.cal.cal = 1 ∨ (x.T.cal.cal = 2 ∧ (kind ≠ 2 ∨ x.s.policy.staleCal ≠ 1)) → Sys2Proof.Machine.exec c s = .next s) ∧
        (x.T.cal.cal = 3 → (kind ≠ 2 ∨ x.s.policy.staleCal ≠ 1) →
          Sys2Proof.Machine.exec c s = .next (x.retireFault (if kind = 3 then 0x50 else 0x51) 8 0 none)) ∧
        (2 ≤ x.T.cal.cal.toNat → kind = 2 → x.s.policy.staleCal = 1 →
          ∃ s' r, Sys2Proof.Machine.exec c s = .next s' ∧ s'.phraseAt t p = some x.ph.advance ∧ (s'.tile t).os.run = some r ∧
            r.kind = 2 ∧ r.slot = p ∧ (s'.tile t).os.st = x.T.os.st ∧ s'.hbm = s.hbm))) ∧
    (Runs 0x50 { imm := 0x7 } s t p f x → x.T.os.run = none → x.T.os.strandCount ≤ f.imm.toNat →
      Sys2Proof.Machine.exec (.osel t p f) s = .next (x.retireFault 0x50 8 0 none)) ∧
    (∀ n kind, Runs 0x51 { a := true, imm := 0x1F3 } s t p f x → kind = f.imm.toNat % 4 →
      n = (x.ph.rs f.a).toNat % 2 ^ 32 →
      (kind = 3 → Sys2Proof.Machine.exec (.orun t p f) s = .next (x.retireFault 0x51 1 0 none)) ∧
      (0 < n → x.T.os.run = none →
        (kind = 1 ∧ (f.imm.toNat / 16 % 16 = 0 ∨ x.s.policy.maxLoose < f.imm.toNat / 16 % 16) ∨
          kind = 2 ∧ x.s.policy.freeRun = 0) →
        Sys2Proof.Machine.exec (.orun t p f) s = .next (x.retireFault 0x51 8 0 none))) ∧
    (Runs 0x50 { imm := 0x7 } s t p f x → x.T.os.run.isSome = true →
      Sys2Proof.Machine.exec (.osel t p f) s = .next s) ∧
    (Runs 0x50 { imm := 0x7 } s t p f x → x.T.os.run = none → (x.T.os.present = false ∨ x.s.policy.det = 1) →
      Sys2Proof.Machine.exec (.osel t p f) s = .next (x.retireFault 0x50 8 0 none))

/-- A phase begins once its phase stop lets it, and not before: no tile of its bridge group lies behind the phase it waits for (R201,
R202). At a phase's end each unit of its strand whose |2βh| is above 16 holds the sign of its field, whatever the noise, and every
unit of another strand holds its state (R185, R194, R196); a run whose anchors of that strand find no key to draw under takes the
random fault and ends (R170, R210; log entry 102). A latch in
free-run: the unit takes the sign of its field where |2βh| is above 16, and every other unit keeps its state (R185, R204). A
spin event that reaches its target, after those its sender sent it before (R329), waits there for the next phase, or in free-run
adds twice each bridge's coupling times the new state to the bridge sums it names (R200, R204). The 32 bits of an event hold the
new state, the phase modulo 16, the tile and the unit (R200). -/
def Obligations.OsierPhases : Prop :=
  (∀ (s : State) (t : Nat) (r : OsRun), (s.tile t).os.run = some r → s.tileUp t = true → r.kind ≠ 2 →
      (r.inPhase = false → calLetsPhase r (s.tile t).cal.cal = true → s.phaseStopOpen t r.stale = true →
        (∀ e ∈ (s.tile t).os.events, e.target = t) →
        ∃ s' b, Sys2Proof.Machine.exec (.phaseStopRelease t) s = .next s' ∧
          (s'.tile t).os.run = some { r with inPhase := true, entry := b } ∧ (s'.tile t).os.events = [] ∧
          (s'.tile t).os.st = (s.tile t).os.st ∧ (s'.tile t).os.phase = (s.tile t).os.phase ∧ s'.hbm = s.hbm) ∧
      (s.phaseStopOpen t r.stale = false → Sys2Proof.Machine.exec (.phaseStopRelease t) s = .next s) ∧
      (s.phaseStopOpen t r.stale = true → ∀ u ∈ s.bridgeGroup t, u ≠ t →
        0 ≤ ((s.tile u).os.phase - ((s.tile t).os.phase - BitVec.ofNat 32 r.stale)).toInt) ∧
      (r.inPhase = true → (s.tile t).os.anchorsIn r.strand ≠ [] → s.anchorKey t r = none →
        ∃ s', Sys2Proof.Machine.exec (.strandPhaseComplete t) s = .next s' ∧ (s'.tile t).os.run = none ∧
          (s'.tile t).os.st = (s.tile t).os.st ∧ (s'.tile t).os.phase = (s.tile t).os.phase ∧ s'.hbm = s.hbm ∧
          ((s.tile t).fault.valid = false → (s'.tile t).fault =
            { valid := true, cause := 10, phrase := r.slot, pc := r.pc, detail := r.word, addr := 0 })) ∧
      (r.inPhase = true → (s.tile t).os.anchorsIn r.strand = [] ∨ (s.anchorKey t r).isSome = true →
        ∃ s', Sys2Proof.Machine.exec (.strandPhaseComplete t) s = .next s' ∧
          (s'.tile t).os.phase = (s.tile t).os.phase + 1 ∧ s'.hbm = s.hbm ∧
          (∀ i, i < 512 → (s.tile t).os.strands.getD i 0 ≠ r.strand →
            (s'.tile t).os.st.getD i false = (s.tile t).os.st.getD i false) ∧
          (∀ i n m e, i < 512 → (s.tile t).os.strands.getD i 0 = r.strand →
            Fp.decode .fp32 (s.tile t).os.beta.toNat = .fin n m e →
            2 ^ (11 - e).toNat < m * ((s.tile t).os.field i).natAbs →
            (s'.tile t).os.st.getD i false = decide (0 < (s.tile t).os.field i)))) ∧
  (∀ (s : State) (t u : Nat) (together : List Nat) (r : OsRun), (s.tile t).os.run = some r → s.tileUp t = true → r.kind = 2 →
      u < 512 →
      ∃ s', Sys2Proof.Machine.exec (.freeRunLatch t u together) s = .next s' ∧ s'.hbm = s.hbm ∧
        (∀ i, i ≠ u → (s'.tile t).os.st.getD i false = (s.tile t).os.st.getD i false) ∧
        (u < (s.tile t).os.st.length → ∀ n m e, Fp.decode .fp32 (s.tile t).os.beta.toNat = .fin n m e →
          2 ^ (11 - e).toNat < m * ((s.tile t).os.field u).natAbs →
          (s'.tile t).os.st.getD u false = decide (0 < (s.tile t).os.field u))) ∧
  (∀ (s : State) (k : Nat) (e : SpinEv), s.spins[k]? = some e → s.tileUp e.target = true → e.target < s.tiles.length →
      (∀ j d, j < k → s.spins[j]? = some d → d.tile = e.tile → d.target = e.target →
        Sys2Proof.Machine.exec (.spinEvent k) s = .next s) ∧
      ((∀ j d, j < k → s.spins[j]? = some d → ¬(d.tile = e.tile ∧ d.target = e.target)) →
      ((s.tile e.target).runsFree = false →
        ∃ s', Sys2Proof.Machine.exec (.spinEvent k) s = .next s' ∧ s'.spins = s.spins.eraseIdx k ∧
          (s'.tile e.target).os = { (s.tile e.target).os with events := (s.tile e.target).os.events ++ [e] } ∧
          ∀ u, u ≠ e.target → s'.tile u = s.tile u) ∧
      ((s.tile e.target).runsFree = true →
        ∃ s', Sys2Proof.Machine.exec (.spinEvent k) s = .next s' ∧ s'.spins = s.spins.eraseIdx k ∧
          (s'.tile e.target).os.st = (s.tile e.target).os.st ∧
          ∀ j, j < (s.tile e.target).os.bsum.length → (s'.tile e.target).os.bsum.getD j 0 = (s.tile e.target).os.bsum.getD j 0 +
            2 * (if e.state then 1 else -1) *
              (((bridgesOf s.bridges e.tile e.unit).filter fun b => b.1 == e.target && b.2.1 == j).map fun b => b.2.2).sum))) ∧
  (∀ (b : Bool) (ph before : BitVec 32) (t u g : Nat) (e : SpinEv), t < 512 → u < 512 →
      e = { word := spinWord b ph t u, before := before, target := g } →
      e.state = b ∧ e.tile = t ∧ e.unit = u ∧ e.word.extractLsb' 27 4 = ph.extractLsb' 0 4 ∧ e.word.extractLsb' 0 9 = 0)

/-- ORD and NRD store the states, one bit a unit, and change no other byte of memory; OWF and OBIAS lay their values over the
external fields and the biases at once outside a phase and a calibration, and otherwise wait for the boundary (R182, R197, R224).
ORD, OWF and OBIAS wait while the phrase's own run is in progress (R243); OWF and OBIAS without an OSIER record and OWF past unit
511 raise the osier fault, cause 8 (R167), NRD without an ANCHORS record the anchor fault, cause 9 (R168), and bytes misaligned or
outside the clause's SRAM the memory fault, cause 3, with s[a] (R160). -/
def Obligations.OsierReadsWrites : Prop :=
  ∀ (s : State) (t p : Nat) (f : Fields) (x : Ctx),
    (x.ownRun = true →
      (Runs 0x52 { a := true } s t p f x → Sys2Proof.Machine.exec (.ord t p f) s = .next s) ∧
      (Runs 0x53 { a := true, b := true, imm := 0x3FF } s t p f x → f.imm ≠ 0 →
        Sys2Proof.Machine.exec (.owf t p f) s = .next s) ∧
      (Runs 0x56 { a := true } s t p f x → Sys2Proof.Machine.exec (.obias t p f) s = .next s)) ∧
    (x.ownRun = false →
      (Runs 0x52 { a := true } s t p f x → x.sramOk (x.ph.rs f.a).toNat 64 1 = false →
        Sys2Proof.Machine.exec (.ord t p f) s = .next (x.retireFault 0x52 3 (x.ph.rs f.a) none)) ∧
      (Runs 0x53 { a := true, b := true, imm := 0x3FF } s t p f x → f.imm ≠ 0 →
        (x.T.os.present = false ∨ 512 < (x.ph.rs f.b).toNat + f.imm.toNat →
          Sys2Proof.Machine.exec (.owf t p f) s = .next (x.retireFault 0x53 8 0 none)) ∧
        (x.T.os.present = true → (x.ph.rs f.b).toNat + f.imm.toNat ≤ 512 →
          x.sramOk (x.ph.rs f.a).toNat (2 * f.imm.toNat) 2 = false →
          Sys2Proof.Machine.exec (.owf t p f) s = .next (x.retireFault 0x53 3 (x.ph.rs f.a) none))) ∧
      (Runs 0x56 { a := true } s t p f x →
        (x.T.os.present = false → Sys2Proof.Machine.exec (.obias t p f) s = .next (x.retireFault 0x56 8 0 none)) ∧
        (x.T.os.present = true → x.sramOk (x.ph.rs f.a).toNat 1024 2 = false →
          Sys2Proof.Machine.exec (.obias t p f) s = .next (x.retireFault 0x56 3 (x.ph.rs f.a) none)))) ∧
    (Runs 0x61 { a := true } s t p f x →
      (x.T.os.hasAnchors = false → Sys2Proof.Machine.exec (.nrd t p f) s = .next (x.retireFault 0x61 9 0 none)) ∧
      (x.T.os.hasAnchors = true → x.sramOk (x.ph.rs f.a).toNat 8 1 = false →
        Sys2Proof.Machine.exec (.nrd t p f) s = .next (x.retireFault 0x61 3 (x.ph.rs f.a) none))) ∧
    (Runs 0x52 { a := true } s t p f x → x.ownRun = false → x.sramOk (x.ph.rs f.a).toNat 64 1 = true →
      (∀ u ∈ x.cr.members, u < s.tiles.length) →
      ∃ s', Sys2Proof.Machine.exec (.ord t p f) s = .next s' ∧ s'.phraseAt t p = some x.ph.advance ∧ s'.hbm = s.hbm ∧
        (∀ i, i < 512 →
          (s'.sramByte (x.cr.members.getD (((x.ph.rs f.a).toNat + i / 8) / sramSize) 0)
            (((x.ph.rs f.a).toNat + i / 8) % sramSize)).getLsbD (i % 8) = x.T.os.st.getD i false) ∧
        ∀ u o, (∀ i, i < 64 → ¬(x.cr.members.getD (((x.ph.rs f.a).toNat + i) / sramSize) 0 = u ∧
          ((x.ph.rs f.a).toNat + i) % sramSize = o)) → s'.sramByte u o = s.sramByte u o) ∧
    (Runs 0x61 { a := true } s t p f x → x.T.os.hasAnchors = true → x.sramOk (x.ph.rs f.a).toNat 8 1 = true →
      (∀ u ∈ x.cr.members, u < s.tiles.length) →
      ∃ s', Sys2Proof.Machine.exec (.nrd t p f) s = .next s' ∧ s'.phraseAt t p = some x.ph.advance ∧ s'.hbm = s.hbm ∧
        (∀ i, i < 64 →
          (s'.sramByte (x.cr.members.getD (((x.ph.rs f.a).toNat + i / 8) / sramSize) 0)
            (((x.ph.rs f.a).toNat + i / 8) % sramSize)).getLsbD (i % 8) = x.T.os.anchorSt.getD i false) ∧
        ∀ u o, (∀ i, i < 8 → ¬(x.cr.members.getD (((x.ph.rs f.a).toNat + i) / sramSize) 0 = u ∧
          ((x.ph.rs f.a).toNat + i) % sramSize = o)) → s'.sramByte u o = s.sramByte u o) ∧
    (∀ n first v, Runs 0x53 { a := true, b := true, imm := 0x3FF } s t p f x → n = f.imm.toNat →
      first = (x.ph.rs f.b).toNat → v = signedWords 2 (x.load (x.ph.rs f.a).toNat (2 * n)) →
      (n = 0 → Sys2Proof.Machine.exec (.owf t p f) s = .next (x.retire 0x53 s (some x.ph.advance) 0)) ∧
      (0 < n → x.ownRun = false → x.T.os.present = true → first + n ≤ 512 →
        x.sramOk (x.ph.rs f.a).toNat (2 * n) 2 = true →
        ∃ s', Sys2Proof.Machine.exec (.owf t p f) s = .next s' ∧ s'.phraseAt t p = some x.ph.advance ∧
          (s'.tile t).os.bias = x.T.os.bias ∧ (s'.tile t).os.st = x.T.os.st ∧
          ((∀ r, x.T.os.run = some r → r.inPhase = false) → x.T.cal.step = 0 → ∀ i, i < 512 →
            (s'.tile t).os.ext.getD i 0 = if first ≤ i ∧ i < first + n then v.getD (i - first) 0 else x.T.os.ext.getD i 0) ∧
          ((∃ r, x.T.os.run = some r ∧ r.inPhase = true) ∨ x.T.cal.step ≠ 0 → (s'.tile t).os.ext = x.T.os.ext ∧
            (s'.tile t).os.writes = x.T.os.writes ++ [{ isBias := false, first := first, vals := v }]))) ∧
    (∀ v, Runs 0x56 { a := true } s t p f x → x.ownRun = false → x.T.os.present = true →
      x.sramOk (x.ph.rs f.a).toNat 1024 2 = true → v = signedWords 2 (x.load (x.ph.rs f.a).toNat 1024) →
      ((∀ b ∈ v, -2048 ≤ b ∧ b ≤ 2047) →
        ∃ s', Sys2Proof.Machine.exec (.obias t p f) s = .next s' ∧ s'.phraseAt t p = some x.ph.advance ∧
          (s'.tile t).os.ext = x.T.os.ext ∧ (s'.tile t).os.st = x.T.os.st ∧
          ((∀ r, x.T.os.run = some r → r.inPhase = false) → x.T.cal.step = 0 → ∀ i, i < 512 →
            (s'.tile t).os.bias.getD i 0 = v.getD i 0) ∧
          ((∃ r, x.T.os.run = some r ∧ r.inPhase = true) ∨ x.T.cal.step ≠ 0 → (s'.tile t).os.bias = x.T.os.bias ∧
            (s'.tile t).os.writes = x.T.os.writes ++ [{ isBias := true, first := 0, vals := v }])) ∧
      ((∃ b ∈ v, b < -2048 ∨ 2047 < b) →
        Sys2Proof.Machine.exec (.obias t p f) s = .next (x.retireFault 0x56 8 0 none)))

/-- OBANK takes the bytes and clears idle_bad; its load's completion fills the idle bank, sets idle_bad where a nonzero code couples
two units of one strand, and leaves the active bank; OSWAP makes the idle bank active at once outside a run and a calibration and
at the boundary within one, and refuses a bad bank with the osier fault (R167, R190, R191, R192, R224). OSS writes the states from 64 bytes, NWR those
of the anchors below the anchor count, NLD the anchors' biases and coefficients; each waits while a run is in progress, and NLD
and NWR raise the anchor fault on a tile without an ANCHORS record (R168, R197). OBANK and OSWAP wait for a load and a swap before
them, and OSWAP for the phrase's own run (R190, R192, R243); OSWAP without an OSIER record raises the osier fault (R167); bytes
misaligned or outside the clause's SRAM raise the memory fault, cause 3, with s[a] (R160). -/
def Obligations.OsierLoads : Prop :=
  (∀ (s : State) (t p : Nat) (f : Fields) (x : Ctx),
    (x.T.os.loading ≠ none ∨ x.T.os.swapPending = true →
      (Runs 0x54 { a := true } s t p f x → Sys2Proof.Machine.exec (.obank t p f) s = .next s) ∧
      (Runs 0x55 {} s t p f x → Sys2Proof.Machine.exec (.oswap t p f) s = .next s)) ∧
    (Runs 0x55 {} s t p f x →
      (x.ownRun = true → Sys2Proof.Machine.exec (.oswap t p f) s = .next s) ∧
      (x.ownRun = false → x.T.os.loading = none → x.T.os.swapPending = false → x.T.os.present = false →
        Sys2Proof.Machine.exec (.oswap t p f) s = .next (x.retireFault 0x55 8 0 none))) ∧
    (Runs 0x54 { a := true } s t p f x → x.T.os.loading = none → x.T.os.swapPending = false →
      x.sramOk (x.ph.rs f.a).toNat 262176 1 = false →
      Sys2Proof.Machine.exec (.obank t p f) s = .next (x.retireFault 0x54 3 (x.ph.rs f.a) none)) ∧
    (x.T.os.run = none →
      (Runs 0x57 { a := true } s t p f x → x.sramOk (x.ph.rs f.a).toNat 64 1 = false →
        Sys2Proof.Machine.exec (.oss t p f) s = .next (x.retireFault 0x57 3 (x.ph.rs f.a) none)) ∧
      (∀ n w, Runs 0x60 { a := true } s t p f x → x.T.os.hasAnchors = true → n = x.T.os.anchorCount →
        w = x.T.os.anchorWidth / 8 → x.sramOk (x.ph.rs f.a).toNat (w * (n + n * (512 + n))) w = false →
        Sys2Proof.Machine.exec (.nld t p f) s = .next (x.retireFault 0x60 3 (x.ph.rs f.a) none)))) ∧
  ((∀ (s : State) (t p : Nat) (f : Fields) (x : Ctx),
      (Runs 0x54 { a := true } s t p f x → x.T.os.loading = none → x.T.os.swapPending = false →
        x.sramOk (x.ph.rs f.a).toNat 262176 1 = true →
        ∃ s', Sys2Proof.Machine.exec (.obank t p f) s = .next s' ∧ s'.phraseAt t p = some x.ph.advance ∧ s'.hbm = s.hbm ∧
          (s'.tile t).os =
            { x.T.os with loading := some (x.load (x.ph.rs f.a).toNat 262176), idleBad := false }) ∧
      (Runs 0x55 {} s t p f x → x.ownRun = false → x.T.os.loading = none → x.T.os.swapPending = false → x.T.os.present = true →
        (x.T.os.idleBad = true → Sys2Proof.Machine.exec (.oswap t p f) s = .next (x.retireFault 0x55 8 0 none)) ∧
        (x.T.os.idleBad = false →
          ∃ s', Sys2Proof.Machine.exec (.oswap t p f) s = .next s' ∧ s'.phraseAt t p = some x.ph.advance ∧ s'.hbm = s.hbm ∧
            (s'.tile t).os =
              if x.T.os.run.isSome || x.T.cal.step != 0 then { x.T.os with swapPending := true } else { x.T.os with bank := !x.T.os.bank }))) ∧
    (∀ (s : State) (t : Nat) (l : List Byte), (s.tile t).os.loading = some l → s.tileUp t = true →
      ∃ s', Sys2Proof.Machine.exec (.obankLoadComplete t) s = .next s' ∧ (s'.tile t).os.loading = none ∧
        (s'.tile t).os.active = (s.tile t).os.active ∧ (s'.tile t).os.idle = bankOf l ∧ (s'.tile t).os.st = (s.tile t).os.st ∧
        ((s'.tile t).os.idleBad = true ↔ ∃ c ∈ (bankOf l).codes,
          (s.tile t).os.strands.getD (c.1 / 512) 0 = (s.tile t).os.strands.getD (c.1 % 512) 0))) ∧
  (∀ (s : State) (t p : Nat) (f : Fields) (x : Ctx),
      (Runs 0x57 { a := true } s t p f x → x.T.os.run = none → x.sramOk (x.ph.rs f.a).toNat 64 1 = true →
        ∃ s', Sys2Proof.Machine.exec (.oss t p f) s = .next s' ∧ s'.phraseAt t p = some x.ph.advance ∧ s'.hbm = s.hbm ∧
          (s'.tile t).os =
            { x.T.os with st := (List.range 512).map (bitAt (leNat (x.load (x.ph.rs f.a).toNat 64))) }) ∧
      (Runs 0x62 { a := true } s t p f x → x.T.os.run = none → x.T.os.hasAnchors = true →
        ∃ s', Sys2Proof.Machine.exec (.nwr t p f) s = .next s' ∧ s'.phraseAt t p = some x.ph.advance ∧
          (s'.tile t).os.anchorSt = (List.range x.T.os.anchorCount).map (x.ph.rs f.a).getLsbD ∧
          (s'.tile t).os.st = x.T.os.st ∧ s'.hbm = s.hbm) ∧
      (∀ n w, Runs 0x60 { a := true } s t p f x → x.T.os.run = none → x.T.os.hasAnchors = true → n = x.T.os.anchorCount →
        w = x.T.os.anchorWidth / 8 → x.sramOk (x.ph.rs f.a).toNat (w * (n + n * (512 + n))) w = true →
        ∃ s', Sys2Proof.Machine.exec (.nld t p f) s = .next s' ∧ s'.phraseAt t p = some x.ph.advance ∧ s'.hbm = s.hbm ∧
          (s'.tile t).os.anchorBias = (signedWords w (x.load (x.ph.rs f.a).toNat (w * (n + n * (512 + n))))).take n ∧
          (s'.tile t).os.anchorCoef = (signedWords w (x.load (x.ph.rs f.a).toNat (w * (n + n * (512 + n))))).drop n) ∧
      (x.T.os.run.isSome = true →
        (Runs 0x57 { a := true } s t p f x → Sys2Proof.Machine.exec (.oss t p f) s = .next s) ∧
        (Runs 0x60 { a := true } s t p f x → Sys2Proof.Machine.exec (.nld t p f) s = .next s) ∧
        (Runs 0x62 { a := true } s t p f x → Sys2Proof.Machine.exec (.nwr t p f) s = .next s)) ∧
      (x.T.os.run = none → x.T.os.hasAnchors = false →
        (Runs 0x60 { a := true } s t p f x →
          Sys2Proof.Machine.exec (.nld t p f) s = .next (x.retireFault 0x60 9 0 none)) ∧
        (Runs 0x62 { a := true } s t p f x →
          Sys2Proof.Machine.exec (.nwr t p f) s = .next (x.retireFault 0x62 9 0 none))))

/-- RDRAW and RDROP in element mode draw each active lane's block at s[b] + v[c][l] under the slot's key, and in lane mode at the
lane's thread and counter, which goes on by one; RCTX sets the context; a slot without a granted key raises the random fault, and
an entry whose tag fails is erased (R155, R169, R170, R284, R285, R456). RDROP in lane mode raises the random fault while POLICY.det
is 1 (R170), and a predicate field above 7 is illegal, cause 1 (R157); lane mode waits while the phrase's own run draws in lane mode
on a tile with anchors (R289). In lane mode each draw of thread t is made at (t << 40)
| c, its counter c goes on by one and, past 2^40 - 1, wraps to 0, which is reported (R285, R286). -/
def Obligations.RandomResults : Prop :=
  (∀ (s : State) (t p : Nat) (f : Fields) (x : Ctx),
      (∀ key, Runs 0x70 { d := true, a := true, b := true, c := true, imm := 0x7F, lanewise := true } s t p f x →
        s.pgKey x.c (f.imm.toNat % 16) = some key → x.ph.v.length = 32 →
        (f.imm.getLsbD 4 = false →
          ∃ s' ph', Sys2Proof.Machine.exec (.rdraw t p f) s = .next s' ∧ s'.phraseAt t p = some ph' ∧ RegFrame s s' t p ∧
            LanesAre x ph' fun l => BitVec.ofNat 32 ((pgBlock key (x.ph.rs f.a).toNat
              (((x.ph.rs f.b).toNat + (x.ph.lane f.c.toNat l).toNat) % 2 ^ 64)).getD (f.imm.toNat / 32 % 4) 0)) ∧
        (f.imm.getLsbD 4 = true → x.laneDrawWaits true = false → x.ph.ctr.length = 64 →
          ∃ s' ph', Sys2Proof.Machine.exec (.rdraw t p f) s = .next s' ∧ s'.phraseAt t p = some ph' ∧ RegFrame s s' t p ∧
            (LanesAre x { ph' with ctr := x.ph.ctr } fun l => BitVec.ofNat 32 ((pgBlock key (x.ph.rs f.a).toNat
              ((x.ph.base + l) % 2 ^ 24 * 2 ^ 40 + x.ph.ctr.getD l 0)).getD (f.imm.toNat / 32 % 4) 0)) ∧
            ∀ l, l < 64 → ph'.ctr.getD l 0 =
              if (x.ph.active f).getLsbD l then (x.ph.ctr.getD l 0 + 1) % 2 ^ 40 else x.ph.ctr.getD l 0)) ∧
      (Runs 0x71 { a := true, b := true, c := true, imm := 0x1F } s t p f x →
        (s.grantedKey x.c (f.imm.toNat % 16)).isSome = true → (f.imm.getLsbD 4 = true → s.policy.det ≠ 1) →
        ∃ s' ph', Sys2Proof.Machine.exec (.rctx t p f) s = .next s' ∧ s'.phraseAt t p = some ph' ∧ RegFrame s s' t p ∧
          ph' = { x.ph.advance with rctx := ph'.rctx } ∧ ph'.rctx.slot = some (f.imm.toNat % 16) ∧
          ph'.rctx.lane = f.imm.getLsbD 4 ∧ ph'.rctx.stream = x.ph.rs f.a ∧
          ∀ l, l < 64 → l < x.ph.lanes → ph'.rctx.pos.getD l 0 = x.ph.rs f.b + (x.ph.lane f.c.toNat l).setWidth 64) ∧
      (∀ key, Runs 0x72 { d := true, a := true, b := true, c := true, imm := 0xFFFFFF1F, lanewise := true } s t p f x →
        s.pgKey x.c (f.imm.toNat % 16) = some key → x.ph.p.length = 8 → f.d.toNat < 8 → f.imm.getLsbD 4 = false →
        ∃ s' ph', Sys2Proof.Machine.exec (.rdrop t p f) s = .next s' ∧ s'.phraseAt t p = some ph' ∧ RegFrame s s' t p ∧
          ph' = { x.ph.advance with p := ph'.p } ∧ (∀ i, i ≠ f.d.toNat → ph'.rp i = x.ph.rp i) ∧
          (f.d ≠ 0 → ∀ l, l < 64 → (ph'.rp f.d.toNat).getLsbD l =
            if (x.ph.active f).getLsbD l then
              decide (f.imm.toNat / 256 ≤ (pgBlock key (x.ph.rs f.a).toNat
                (((x.ph.rs f.b).toNat + (x.ph.lane f.c.toNat l).toNat) % 2 ^ 64)).getD 0 0 / 256)
            else (x.ph.rp f.d.toNat).getLsbD l)) ∧
      (∀ key, Runs 0x72 { d := true, a := true, b := true, c := true, imm := 0xFFFFFF1F, lanewise := true } s t p f x →
        s.pgKey x.c (f.imm.toNat % 16) = some key → x.ph.p.length = 8 → f.d.toNat < 8 → f.imm.getLsbD 4 = true →
        s.policy.det ≠ 1 → x.laneDrawWaits true = false → x.ph.ctr.length = 64 →
        ∃ s' ph', Sys2Proof.Machine.exec (.rdrop t p f) s = .next s' ∧ s'.phraseAt t p = some ph' ∧ RegFrame s s' t p ∧
          ph' = { x.ph.advance with p := ph'.p, ctr := ph'.ctr } ∧ (∀ i, i ≠ f.d.toNat → ph'.rp i = x.ph.rp i) ∧
          (f.d ≠ 0 → ∀ l, l < 64 → (ph'.rp f.d.toNat).getLsbD l =
            if (x.ph.active f).getLsbD l then
              decide (f.imm.toNat / 256 ≤ (pgBlock key (x.ph.rs f.a).toNat
                ((x.ph.base + l) % 2 ^ 24 * 2 ^ 40 + x.ph.ctr.getD l 0)).getD 0 0 / 256)
            else (x.ph.rp f.d.toNat).getLsbD l) ∧
          ∀ l, l < 64 → ph'.ctr.getD l 0 =
            if (x.ph.active f).getLsbD l then (x.ph.ctr.getD l 0 + 1) % 2 ^ 40 else x.ph.ctr.getD l 0) ∧
      (s.pgKey x.c (f.imm.toNat % 16) = none →
        (Runs 0x70 { d := true, a := true, b := true, c := true, imm := 0x7F, lanewise := true } s t p f x →
          Sys2Proof.Machine.exec (.rdraw t p f) s = .next ((x.retireFault 0x70 10 0 none).loseSlot (f.imm.toNat % 16))) ∧
        (Runs 0x72 { d := true, a := true, b := true, c := true, imm := 0xFFFFFF1F, lanewise := true } s t p f x →
          f.d.toNat < 8 → (f.imm.getLsbD 4 = true → s.policy.det ≠ 1) →
          Sys2Proof.Machine.exec (.rdrop t p f) s = .next ((x.retireFault 0x72 10 0 none).loseSlot (f.imm.toNat % 16)))) ∧
      (Runs 0x72 { d := true, a := true, b := true, c := true, imm := 0xFFFFFF1F, lanewise := true } s t p f x →
        (8 ≤ f.d.toNat → Sys2Proof.Machine.exec (.rdrop t p f) s = .next (x.retireFault 0x72 1 0 none)) ∧
        (f.d.toNat < 8 → f.imm.getLsbD 4 = true → s.policy.det = 1 →
          Sys2Proof.Machine.exec (.rdrop t p f) s = .next (x.retireFault 0x72 10 0 none)) ∧
        (f.d.toNat < 8 → f.imm.getLsbD 4 = true → s.policy.det ≠ 1 → (s.pgKey x.c (f.imm.toNat % 16)).isSome = true →
          x.laneDrawWaits true = true → Sys2Proof.Machine.exec (.rdrop t p f) s = .next s)) ∧
      (Runs 0x70 { d := true, a := true, b := true, c := true, imm := 0x7F, lanewise := true } s t p f x →
        f.imm.getLsbD 4 = true → (s.pgKey x.c (f.imm.toNat % 16)).isSome = true → x.laneDrawWaits true = true →
        Sys2Proof.Machine.exec (.rdraw t p f) s = .next s) ∧
      (x.laneDrawWaits true = true ↔ x.T.os.hasAnchors = true ∧ ∃ r, x.T.os.run = some r ∧ r.slot = x.p ∧ r.ctx.lane = true) ∧
      (s.grantedKey x.c (f.imm.toNat % 16) = none ∨ (f.imm.getLsbD 4 = true ∧ s.policy.det = 1) →
        Runs 0x71 { a := true, b := true, c := true, imm := 0x1F } s t p f x →
        Sys2Proof.Machine.exec (.rctx t p f) s = .next (x.retireFault 0x71 10 0 none))) ∧
  (∀ (key : List Byte) (stream pos tid lane : Nat) (d : Draws), lane < d.ctr.length → d.ctr.getD lane 0 < 2 ^ 40 →
      tid < 2 ^ 24 →
      (drawBlock key true stream pos tid lane d).1 = pgBlock key stream (tid <<< 40 ||| d.ctr.getD lane 0) ∧
      (drawBlock key true stream pos tid lane d).2.n = d.n + 1 ∧
      (drawBlock key true stream pos tid lane d).2.ctr.getD lane 0 =
        (if d.ctr.getD lane 0 = 2 ^ 40 - 1 then 0 else d.ctr.getD lane 0 + 1) ∧
      ((drawBlock key true stream pos tid lane d).2.wrapped = true ↔ d.wrapped = true ∨ d.ctr.getD lane 0 = 2 ^ 40 - 1) ∧
      (∀ l, l ≠ lane → (drawBlock key true stream pos tid lane d).2.ctr.getD l 0 = d.ctr.getD l 0) ∧
      (drawBlock key false stream pos tid lane d).2.ctr = d.ctr)

/-- Stops: STOPN sets this tile's participant count; ARRIVE counts an arrival for the open generation, or for a later one once its
count is full; a generation completes once every member has counted its participants, whereupon WAIT for it returns; WAIT
without an arrival raises the stop fault; a stop whose counts are all 0 completes its generations at once, so that no arrival
stays pending (R152, R153, R154). STOPN of a stop with a pending arrival raises the stop fault (R152); an ARRIVE waits for what its
phrase has outstanding (R153). -/
def Obligations.Stops : Prop :=
  (∀ (s : State) (t p : Nat) (f : Fields) (x : Ctx) (k : Nat), k = f.imm.toNat →
    (Runs 0x82 { a := true, imm := 0xF } s t p f x → k < x.T.partc.length → (x.T.arr.getD k []) = [] →
      ((x.ph.rs f.a).toNat ≤ 64 →
        ∃ s', Sys2Proof.Machine.exec (.stopn t p f) s = .next s' ∧ s'.phraseAt t p = some x.ph.advance ∧
          (s'.tile t).partc = x.T.partc.set k (x.ph.rs f.a).toNat ∧ (s'.tile t).arr = x.T.arr ∧ s'.hbm = s.hbm ∧
          (s'.stopIdle x.cr.members k = true → ∀ m ∈ x.cr.members, (s'.tile m).arr.getD k [] = [])) ∧
      (64 < (x.ph.rs f.a).toNat →
        Sys2Proof.Machine.exec (.stopn t p f) s = .next (x.retireFault 0x82 11 0 none))) ∧
    (Runs 0x82 { a := true, imm := 0xF } s t p f x → x.T.arr.getD k [] ≠ [] →
      Sys2Proof.Machine.exec (.stopn t p f) s = .next (x.retireFault 0x82 11 0 none)) ∧
    (Runs 0x80 { imm := 0xF } s t p f x → s.outstanding t p = true → Sys2Proof.Machine.exec (.arrive t p f) s = .next s) ∧
    (∀ g, Runs 0x80 { imm := 0xF } s t p f x → s.outstanding t p = false → k < x.T.arr.length → x.ph.arrived.length = 16 →
      g = s.genOf x.c k + (if x.T.partc.getD k 1 = 0 then 1 else (x.T.arr.getD k []).length / x.T.partc.getD k 1) →
      ∃ s' ph', Sys2Proof.Machine.exec (.arrive t p f) s = .next s' ∧ s'.phraseAt t p = some ph' ∧
        ph' = { x.ph.advance with arrived := ph'.arrived } ∧ ph'.arrived.getD k none = some g ∧
        (s'.tile t).partc = x.T.partc ∧ s'.hbm = s.hbm ∧
        (s.stopIdle x.cr.members k = false → (s'.tile t).arr.getD k [] = x.T.arr.getD k [] ++ [g]) ∧
        (s.stopIdle x.cr.members k = true → (∀ m ∈ x.cr.members, (s'.tile m).arr.getD k [] = []) ∧
          ∀ y, s.clauseSt x.c = some y → y.gens.length = 16 → t ∈ x.cr.members → g < s'.genOf x.c k)) ∧
    (Runs 0x81 { imm := 0xF } s t p f x →
      (x.ph.arrived.getD k none = none →
        Sys2Proof.Machine.exec (.wait t p f) s = .next (x.retireFault 0x81 11 0 none)) ∧
      (∀ g, x.ph.arrived.getD k none = some g → g < s.genOf x.c k ∨ s.stopIdle x.cr.members k = true →
        Sys2Proof.Machine.exec (.wait t p f) s = .next (x.retire 0x81 s (some x.ph.advance) 0)) ∧
      (∀ g, x.ph.arrived.getD k none = some g → s.genOf x.c k ≤ g → s.stopIdle x.cr.members k = false →
        Sys2Proof.Machine.exec (.wait t p f) s = .next s))) ∧
  (∀ (s : State) (c k : Nat) (cr : ClauseRec) (y : ClauseSt), s.clauseRec c = some cr → s.clauseSt c = some y → k < 16 →
    y.gens.length = 16 → s.up = true →
    ((∀ m ∈ cr.members, (s.tile m).partc.getD k 1 ≤ ((s.tile m).arr.getD k []).count (s.genOf c k)) →
      ∃ s', Sys2Proof.Machine.exec (.stopGenerationComplete c k) s = .next s' ∧ s'.genOf c k = s.genOf c k + 1 ∧
        (∀ j, j ≠ k → s'.genOf c j = s.genOf c j) ∧ s'.hbm = s.hbm) ∧
    ((∃ m ∈ cr.members, ((s.tile m).arr.getD k []).count (s.genOf c k) < (s.tile m).partc.getD k 1) →
      Sys2Proof.Machine.exec (.stopGenerationComplete c k) s = .next s))

/-- FSEND contributes its active lanes at its own node of the slot's tree, inactive lanes the identity; a slot of another clause, a
tile outside the tree or a base that is no multiple of 64 raises the fold fault, and so do a slot without a record, a width that is
not the slot's and, for a fold rooted at a tile, a base of 2^32 or more (R171, R330, R331, R335, R341). An int64 pair named from v31
is illegal, cause 1 (R157). In a two-pass fold the contribution is held and its exponents sent up in pass 1, where the tile's share
has room; it waits where there is none (R336, R337, R341); a fixed-scale fold sends each element scaled, rounded and clamped to int64
(R338). The router at a node
of an integer fold combines its inputs' heads where they name one base, adding exactly element by element, and hands the sum to
its parent; heads of different bases are a mismatch (R331, R332, R336). -/
def Obligations.FoldSends : Prop :=
  (∀ (s : State) (t p : Nat) (f : Fields) (x : Ctx) (r : FoldRec) (i : Nat),
      Runs 0x90 { a := true, b := true, imm := 0x7FF, lanewise := true } s t p f x →
      s.foldRec (f.imm.toNat % 1024) = some r → (f.imm.getLsbD 10 = true → f.a ≠ 31) →
      (r.clause = x.c → r.indexOf t = some i → i < (s.foldSt r).nodes.length → f.imm.getLsbD 10 = (r.kind == 1) →
        (x.ph.rs f.b).toNat % 64 = 0 → (isTileNode (r.node r.root) = true → (x.ph.rs f.b).toNat < 2 ^ 32) →
        (r.twoPass = true → ((s.foldSt r).nodes.getD i FoldNode.empty).held.length < s.foldShare t) →
        ∃ s' n, Sys2Proof.Machine.exec (.fsend t p f) s = .next s' ∧ s'.phraseAt t p = some x.ph.advance ∧ s'.hbm = s.hbm ∧
          (s'.foldSt r).nodes = (s.foldSt r).nodes.set i n ∧
          (r.kind = 0 → ∃ e, n = { (s.foldSt r).nodes.getD i FoldNode.empty with
              own2 := ((s.foldSt r).nodes.getD i FoldNode.empty).own2 ++ [e] } ∧ e.g.base = (x.ph.rs f.b).toNat ∧
            e.g.vals = (List.range 64).map fun l =>
              if (x.ph.active f).getLsbD l then (x.ph.lane f.a.toNat l).toInt else 0) ∧
          (r.kind = 1 → ∃ e, n = { (s.foldSt r).nodes.getD i FoldNode.empty with
              own2 := ((s.foldSt r).nodes.getD i FoldNode.empty).own2 ++ [e] } ∧ e.g.base = (x.ph.rs f.b).toNat ∧
            e.g.vals = (List.range 64).map fun l =>
              if (x.ph.active f).getLsbD l then (x.ph.lane (f.a.toNat + 1) l ++ x.ph.lane f.a.toNat l).toInt else 0)) ∧
      (r.clause ≠ x.c ∨ r.indexOf t = none ∨ (x.ph.rs f.b).toNat % 64 ≠ 0 ∨ f.imm.getLsbD 10 ≠ (r.kind == 1) ∨
          (isTileNode (r.node r.root) = true ∧ 2 ^ 32 ≤ (x.ph.rs f.b).toNat) →
        Sys2Proof.Machine.exec (.fsend t p f) s = .next (x.retireFault 0x90 12 0 none)) ∧
      (r.clause = x.c → r.indexOf t = some i → f.imm.getLsbD 10 = (r.kind == 1) → (x.ph.rs f.b).toNat % 64 = 0 →
        (isTileNode (r.node r.root) = true → (x.ph.rs f.b).toNat < 2 ^ 32) → r.twoPass = true →
        s.foldShare t ≤ ((s.foldSt r).nodes.getD i FoldNode.empty).held.length →
        Sys2Proof.Machine.exec (.fsend t p f) s = .next s) ∧
      (r.clause = x.c → r.indexOf t = some i → i < (s.foldSt r).nodes.length → 2 ≤ r.kind → r.kind ≤ 4 →
        f.imm.getLsbD 10 = false → (x.ph.rs f.b).toNat % 64 = 0 →
        (isTileNode (r.node r.root) = true → (x.ph.rs f.b).toNat < 2 ^ 32) →
        (r.twoPass = true → ((s.foldSt r).nodes.getD i FoldNode.empty).held.length < s.foldShare t) →
        ∃ s' n, Sys2Proof.Machine.exec (.fsend t p f) s = .next s' ∧
          (s'.foldSt r).nodes = (s.foldSt r).nodes.set i n ∧
          ∀ pat : Nat → Nat, (∀ l, pat l = if (x.ph.active f).getLsbD l then
              (if r.kind = 3 then (x.ph.lane f.a.toNat l).toNat % 2 ^ 16 * 2 ^ 16 else (x.ph.lane f.a.toNat l).toNat) else 0) →
            (r.kind = 4 → ∃ e, n = { (s.foldSt r).nodes.getD i FoldNode.empty with
                own2 := ((s.foldSt r).nodes.getD i FoldNode.empty).own2 ++ [e] } ∧ e.g.base = (x.ph.rs f.b).toNat ∧
              (∀ l, l < 64 → (e.g.nan.getLsbD l = true ↔ Fp.decode .fp32 (pat l) = .nan) ∧
                (e.g.pinf.getLsbD l = true ↔ Fp.decode .fp32 (pat l) = .inf false) ∧
                (e.g.ninf.getLsbD l = true ↔ Fp.decode .fp32 (pat l) = .inf true)) ∧
              ∀ l neg m q k, l < 64 → Fp.decode .fp32 (pat l) = .fin neg m q →
                k = ({ neg := neg, m := m, e := q - r.scale, more := false } : Exact).round 0 none →
                e.g.vals.getD l 0 = max (-9223372036854775808) (min 9223372036854775807 (if neg then -(k : Int) else k))) ∧
            (r.kind ≠ 4 → ∃ e h, n = { (s.foldSt r).nodes.getD i FoldNode.empty with
                own1 := ((s.foldSt r).nodes.getD i FoldNode.empty).own1 ++ [e]
                held := ((s.foldSt r).nodes.getD i FoldNode.empty).held ++ [h] } ∧
              e.g.base = (x.ph.rs f.b).toNat ∧ h.g.base = (x.ph.rs f.b).toNat ∧
              (∀ l, l < 64 → (e.g.nan.getLsbD l = true ↔ Fp.decode .fp32 (pat l) = .nan)) ∧
              ∀ l neg m q, l < 64 → Fp.decode .fp32 (pat l) = .fin neg m q →
                e.g.vals.getD l 0 = (if m = 0 then -150 else q + (Nat.log2 m : Nat))))) ∧
  (∀ (s : State) (t p : Nat) (f : Fields) (x : Ctx), Runs 0x90 { a := true, b := true, imm := 0x7FF, lanewise := true } s t p f x →
      (f.imm.getLsbD 10 = true → f.a = 31 →
        Sys2Proof.Machine.exec (.fsend t p f) s = .next (x.retireFault 0x90 1 0 none)) ∧
      ((f.imm.getLsbD 10 = true → f.a ≠ 31) → s.foldRec (f.imm.toNat % 1024) = none →
        Sys2Proof.Machine.exec (.fsend t p f) s = .next (x.retireFault 0x90 12 0 none))) ∧
  (∀ (s : State) (r : FoldRec) (slot i : Nat) (h : FGroup) (rest : List FGroup), s.up = true → s.foldRec slot = some r →
      r.slot = slot → allHeads (foldHeads r (s.foldSt r) i 2) = some (h :: rest) → i < r.nodes.length →
      i < (s.foldSt r).nodes.length → (s.foldSt r).mismatch = false →
      ((∀ g ∈ rest, g.g.base = h.g.base) → i ≠ r.root → i ∉ r.children i →
        ∃ s' g, Sys2Proof.Machine.exec (.foldGroupCombine slot i 2) s = .next s' ∧ s'.hbm = s.hbm ∧
          ((s'.foldSt r).nodes.getD i FoldNode.empty).up2 = ((s.foldSt r).nodes.getD i FoldNode.empty).up2 ++ [g] ∧
          g.g.base = h.g.base ∧ (s'.foldSt r).mismatch = false ∧
          (∀ e, (∀ q ∈ h :: rest, q.g.vals.length = 64) → e < 64 →
            g.g.vals.getD e 0 = ((h :: rest).map fun q => q.g.vals.getD e 0).sum)) ∧
      ((∀ g ∈ rest, g.g.base = h.g.base) → i = r.root → isTileNode (r.node r.root) = true → r.kind ≤ 1 →
        ∃ s' g, Sys2Proof.Machine.exec (.foldGroupCombine slot i 2) s = .next s' ∧ s'.hbm = s.hbm ∧
          (s'.foldSt r).results = (s.foldSt r).results ++ [g] ∧ g.base = h.g.base) ∧
      ((∃ g ∈ rest, g.g.base ≠ h.g.base) → isTileNode (r.node r.root) = true →
        ∃ s', Sys2Proof.Machine.exec (.foldGroupCombine slot i 2) s = .next s' ∧ s'.hbm = s.hbm ∧
          (s'.foldSt r).mismatch = true ∧ (s'.foldSt r).nodes = (s.foldSt r).nodes))

/-- The root's exponents go down the tree, whereupon every node converts its oldest held group; FRECV at the root returns the oldest
result group, and a base other than its own, or another tile, raises the fold fault (R171, R334, R337, R339). It waits while there is
none; a slot without a record, and a mismatch, raise the fold fault (R171, R332); an int64 result goes to a pair of registers, whose
first is even, or the instruction is illegal, cause 1 (R157). A fold's integer
results: kind 0 clamps each sum to int32 and kind 1 to int64, with the sat bit where that changes one (R336, R339). -/
def Obligations.FoldReceives : Prop :=
  ((∀ (s : State) (r : FoldRec) (slot : Nat) (e : Group) (rest : List Group), s.up = true → s.foldRec slot = some r →
      r.slot = slot → (s.foldSt r).exps = e :: rest → (s.foldSt r).nodes.length = r.nodes.length →
      ∃ s', Sys2Proof.Machine.exec (.foldExponentBroadcast slot) s = .next s' ∧ (s'.foldSt r).exps = rest ∧
        (s'.foldSt r).nodes = (s.foldSt r).nodes.map (FoldNode.convert e) ∧ s'.hbm = s.hbm) ∧
    (∀ (s : State) (t p : Nat) (f : Fields) (x : Ctx) (r : FoldRec) (g : Group) (rest : List Group),
      Runs 0x91 { d := true, b := true, imm := 0x3FF } s t p f x → s.foldRec f.imm.toNat = some r →
      (r.clause = x.c → r.node r.root = t → (r.kind = 1 → f.d.toNat % 2 = 0) → (s.foldSt r).mismatch = false →
        (s.foldSt r).results = g :: rest →
        (g.base = (x.ph.rs f.b).toNat → x.ph.v.length = 32 →
          ∃ s' ph', Sys2Proof.Machine.exec (.frecv t p f) s = .next s' ∧ s'.phraseAt t p = some ph' ∧ s'.hbm = s.hbm ∧
            (s'.foldSt r).results = rest ∧ ph'.pc = x.ph.advance.pc ∧
            (∀ l, l < 64 → ph'.lane f.d.toNat l =
              if l < x.ph.lanes then BitVec.ofInt 32 (g.vals.getD l 0) else x.ph.lane f.d.toNat l) ∧
            (g.sat = true → ph'.vflags.getLsbD 3 = true)) ∧
        (g.base ≠ (x.ph.rs f.b).toNat →
          Sys2Proof.Machine.exec (.frecv t p f) s = .next (x.retireFault 0x91 12 0 none))) ∧
      (r.clause ≠ x.c ∨ r.node r.root ≠ t →
        Sys2Proof.Machine.exec (.frecv t p f) s = .next (x.retireFault 0x91 12 0 none)) ∧
      (r.clause = x.c → r.node r.root = t →
        (r.kind = 1 → f.d.toNat % 2 = 1 →
          Sys2Proof.Machine.exec (.frecv t p f) s = .next (x.retireFault 0x91 1 0 none)) ∧
        ((r.kind = 1 → f.d.toNat % 2 = 0) →
          ((s.foldSt r).mismatch = true →
            Sys2Proof.Machine.exec (.frecv t p f) s = .next (x.retireFault 0x91 12 0 none)) ∧
          ((s.foldSt r).mismatch = false → (s.foldSt r).results = [] →
            Sys2Proof.Machine.exec (.frecv t p f) s = .next s)) ∧
        (r.kind = 1 → f.d.toNat % 2 = 0 → (s.foldSt r).mismatch = false → (s.foldSt r).results = g :: rest →
          g.base = (x.ph.rs f.b).toNat → x.ph.v.length = 32 →
          ∃ s' ph', Sys2Proof.Machine.exec (.frecv t p f) s = .next s' ∧ s'.phraseAt t p = some ph' ∧
            ∀ l, l < 64 → l < x.ph.lanes →
              ph'.lane (f.d.toNat + 1) l ++ ph'.lane f.d.toNat l = BitVec.ofInt 64 (g.vals.getD l 0)))) ∧
    (∀ (s : State) (t p : Nat) (f : Fields) (x : Ctx), Runs 0x91 { d := true, b := true, imm := 0x3FF } s t p f x →
      s.foldRec f.imm.toNat = none → Sys2Proof.Machine.exec (.frecv t p f) s = .next (x.retireFault 0x91 12 0 none))) ∧
  (∀ (r : FoldRec) (e g : Group),
      (r.kind = 0 → (foldResult r e g).vals = g.vals.map (fun v => max (-2147483648) (min 2147483647 v)) ∧
        ((foldResult r e g).sat = true ↔ g.sat = true ∨ ∃ v ∈ g.vals, v < -2147483648 ∨ 2147483647 < v)) ∧
      (r.kind = 1 → (foldResult r e g).vals =
          g.vals.map (fun v => max (-9223372036854775808) (min 9223372036854775807 v)) ∧
        ((foldResult r e g).sat = true ↔
          g.sat = true ∨ ∃ v ∈ g.vals, v < -9223372036854775808 ∨ 9223372036854775807 < v)) ∧
      (2 ≤ r.kind → r.kind ≤ 4 → ∀ i, i < 64 → (e.nan.getLsbD i = true ∨ r.kind = 4 ∧ g.nan.getLsbD i = true) →
        (r.kind = 4 → g.nan.getLsbD i = true) → (foldResult r e g).vals.getD i 0 =
          if r.kind = 3 then 0x7FC0 else 0x7FC00000))

/-- TRD reads a live counter where POLICY.tally_visible allows it, and raises the tally fault where it does not; TMARK counts its
mark; HOLD holds its tile where hold_en is set, and is a NOP elsewhere (R172, R173, R530, R540). A counter that the mode in force
does not have is illegal, cause 1 (R172). -/
def Obligations.TallyAndHold : Prop :=
  ∀ (s : State) (t p : Nat) (f : Fields) (x : Ctx),
    (Runs 0xA0 { d := true, imm := 0x7F } s t p f x → f.imm.toNat < (if s.tly.cfg.dedicated then 96 else 8) →
      (s.policy.tallyVisible ≠ 0 →
        ∃ s', Sys2Proof.Machine.exec (.trd t p f) s = .next s' ∧ RegFrame s s' t p ∧
          s'.phraseAt t p = some (x.ph.ws f.d (BitVec.ofNat 64 (x.T.cnt.getD f.imm.toNat 0))).advance) ∧
      (s.policy.tallyVisible = 0 →
        Sys2Proof.Machine.exec (.trd t p f) s = .next (x.retireFault 0xA0 13 0 none))) ∧
    (Runs 0xA0 { d := true, imm := 0x7F } s t p f x → (if s.tly.cfg.dedicated then 96 else 8) ≤ f.imm.toNat →
      Sys2Proof.Machine.exec (.trd t p f) s = .next (x.retireFault 0xA0 1 0 none)) ∧
    (Runs 0xA1 { imm := 0xFFFF } s t p f x →
      ∃ s', Sys2Proof.Machine.exec (.tmark t p f) s = .next s' ∧ RegFrame s s' t p ∧ s'.phraseAt t p = some x.ph.advance ∧
        (s.tly.cfg.dedicated = false → ∀ k v, k < 8 → s.tly.cfg.events[k]? = some (0x8000 + f.imm.toNat % 2 ^ 15) →
          x.T.cnt[k]? = some v → (s'.tile t).cnt[k]? = some (min (v + 1) (2 ^ 48 - 1)))) ∧
    (Runs 0xB0 { imm := 0xFF } s t p f x →
      (x.T.dbg.holdEn = false →
        Sys2Proof.Machine.exec (.hold t p f) s = .next (x.retire 0xB0 s (some x.ph.advance) 0)) ∧
      (x.T.dbg.holdEn = true →
        ∃ s', Sys2Proof.Machine.exec (.hold t p f) s = .next s' ∧ s'.phraseAt t p = some x.ph.advance ∧
          (s'.tile t).dbg.held = true ∧ s'.hbm = s.hbm))

/-! ## Command queues and the host (12) -/

/-- An enable checks both sizes and both alignments and starts the queue from slot 0 with phase 1, or sets err; a disable stops it;
a doorbell of BAR4 below its ring's size is taken, another sets err, and an offset without a doorbell changes nothing; the queues
fetch in turns; a fetched descriptor starts its command, completes at once for an unassigned opcode or a reserved flag, and one
whose fence or whose place waits is kept and starts once it may; a record is written at its slot with the queue's phase, while the
chief steward works (R404 to R409, R413, R534). -/
def Obligations.HostQueues : Prop :=
  ∀ (s : State) (q : Nat), s.hostUp = true → q < s.queues.length → q < 16 →
    (∀ val : BitVec 32,
      ((s.queue q).enable = false → val.getLsbD 31 = true →
        ∃ s', Sys2Proof.Machine.exec (.queueEnable q val) s = .next s' ∧ (∀ k, k ≠ q → s'.queue k = s.queue k) ∧
          ∀ good : Prop,
            (good ↔ 4 ≤ val.toNat / 2 ^ 20 % 16 ∧ val.toNat / 2 ^ 20 % 16 ≤ 12 ∧ 4 ≤ val.toNat / 2 ^ 16 % 16 ∧
              val.toNat / 2 ^ 16 % 16 ≤ 12 ∧ (s.queue q).sq.toNat % 4096 = 0 ∧ (s.queue q).cq.toNat % 4096 = 0 ∧
              s.completing q = false ∧ (s.queue q).held = none) →
            (good → (s'.queue q).enable = true ∧ (s'.queue q).sqHead = 0 ∧ (s'.queue q).sqTail = 0 ∧
              (s'.queue q).cqTail = 0 ∧ (s'.queue q).cqDoor = 0 ∧ (s'.queue q).phase = true ∧ s'.dev = s.dev) ∧
            (¬good → (s'.queue q).enable = false ∧ (s'.queue q).err = true ∧
              s'.dev.irqStat = s.dev.irqStat ||| 0x40)) ∧
      ((s.queue q).enable = true → val.getLsbD 31 = false →
        ∃ s', Sys2Proof.Machine.exec (.queueDisable q val) s = .next s' ∧ (s'.queue q).enable = false ∧
          s'.started = s.started ∧ (s'.queue q).cqTail = (s.queue q).cqTail ∧ (s'.queue q).cqDoor = (s.queue q).cqDoor ∧
          ∀ k, k ≠ q → s'.queue k = s.queue k) ∧
      ((s.queue q).enable = false → Sys2Proof.Machine.exec (.submissionDoorbell (8 * q) val) s = .next s) ∧
      ((s.queue q).enable = true →
        ∃ s', Sys2Proof.Machine.exec (.submissionDoorbell (8 * q) val) s = .next s' ∧
          s'.queue q = if val.toNat < 2 ^ (s.queue q).sqLog2 then { s.queue q with sqTail := val.toNat }
            else { s.queue q with err := true }) ∧
      (s.qActive q = false → Sys2Proof.Machine.exec (.completionDoorbell (0x100 + 8 * q) val) s = .next s) ∧
      (s.qActive q = true →
        ∃ s', Sys2Proof.Machine.exec (.completionDoorbell (0x100 + 8 * q) val) s = .next s' ∧
          s'.queue q = if val.toNat < 2 ^ (s.queue q).cqLog2 then { s.queue q with cqDoor := val.toNat }
            else { s.queue q with err := true }) ∧
      (∀ off, off % 8 ≠ 0 ∨ 0x80 ≤ off → Sys2Proof.Machine.exec (.submissionDoorbell off val) s = .next s) ∧
      (∀ off, off % 8 ≠ 0 ∨ off < 0x100 ∨ 0x180 ≤ off → Sys2Proof.Machine.exec (.completionDoorbell off val) s = .next s)) ∧
    (∀ data, ((s.queue q).enable = false ∨ (s.queue q).sqHead = (s.queue q).sqTail ∨
        ((s.queue q).cqTail + 1) % 2 ^ (s.queue q).cqLog2 = (s.queue q).cqDoor ∨ (s.queue q).held ≠ none) →
      Sys2Proof.Machine.exec (.commandFetch q data) s = .next s) ∧
    (s.mayFetch q = true ↔ s.canFetch q = true ∧ ∃ i, i < 16 ∧ q = (s.dev.qTurn + i) % 16 ∧
      ∀ j, j < i → s.canFetch ((s.dev.qTurn + j) % 16) = false) ∧
    (∀ d : List Byte, s.mayFetch q = true →
      ((d.getD 1 0).getLsbD 0 = true ∧ s.completing q = true ∨ 64 ≤ s.started.length →
        ∃ s', Sys2Proof.Machine.exec (.commandFetch q (.ok d)) s = .next s' ∧ s'.started = s.started ∧
          (s'.queue q).held = some (d, descFail d) ∧ s'.dev.qTurn = (q + 1) % 16 ∧
          (s'.queue q).sqHead = ((s.queue q).sqHead + 1) % 2 ^ (s.queue q).sqLog2 ∧ s'.hbm = s.hbm ∧ s'.out = s.out) ∧
      (((d.getD 1 0).getLsbD 0 = false ∨ s.completing q = false) → s.started.length < 64 →
        ∃ s' c, Sys2Proof.Machine.exec (.commandFetch q (.ok d)) s = .next s' ∧ s'.started = s.started ++ [c] ∧
          s'.nextId = s.nextId + 1 ∧ c.id = s.nextId ∧ c.queue = q ∧ c.opcode = (d.getD 0 0).toNat ∧ c.desc = d ∧
          c.cid = leAt d 2 2 ∧ (s'.queue q).sqHead = ((s.queue q).sqHead + 1) % 2 ^ (s.queue q).sqLog2 ∧
          s'.dev.qTurn = (q + 1) % 16 ∧ s'.hbm = s.hbm ∧ s'.out = s.out ∧ s'.tiles = s.tiles ∧
          ((∀ e ∈ descForms, e.op ≠ (d.getD 0 0).toNat) → c.fin.map (·.status) = some 0x73) ∧
          ((∃ e ∈ descForms, e.op = (d.getD 0 0).toNat) → 4 ≤ (d.getD 1 0).toNat →
            c.fin = some { status := 0x72, detail0 := 1, detail1 := 0, detail2 := 0 }))) ∧
    (∀ a, s.mayFetch q = true →
      ∃ s' x, Sys2Proof.Machine.exec (.commandFetch q (.fail a)) s = .next s' ∧
        x = { status := 0x42, detail0 := BitVec.ofNat 64 a, detail1 := 0, detail2 := 0 } ∧
        ((∃ c, s'.started = s.started ++ [c] ∧ c.fin = some x) ∨
          s'.started = s.started ∧ ∃ d, (s'.queue q).held = some (d, some x)) ∧
        (s.completing q = false → s.started.length < 64 → ∃ c, s'.started = s.started ++ [c] ∧ c.fin = some x)) ∧
    (∀ id c x, s.chiefRuns = true → s.cmd id = some c → id < s.nextId → c.fin = some x → c.queue = q →
      (s.queue q).full = false → x.status ≠ 0x50 →
      ∃ s' r, Sys2Proof.Machine.exec (.completionRecordWrite id) s = .next s' ∧ s'.cmd id = none ∧
        s'.out = s.out ++ [Output.hostWrite ((s.queue q).cq.toNat + 32 * (s.queue q).cqTail) r] ++
          (if (c.desc.getD 1 0).getLsbD 1 then [Output.msix (1 + q)] else []) ∧
        r.length = 32 ∧ leAt r 0 2 = c.cid % 65536 ∧ leAt r 2 1 = c.opcode % 256 ∧ leAt r 3 1 = x.status % 256 ∧
        leAt r 4 1 = q % 256 ∧ leAt r 5 1 = b2n (s.queue q).phase ∧ leAt r 8 8 = x.detail0.toNat ∧
        leAt r 16 8 = x.detail1.toNat ∧ leAt r 24 8 = x.detail2.toNat ∧
        (s'.queue q).cqTail = ((s.queue q).cqTail + 1) % 2 ^ (s.queue q).cqLog2 ∧
        ((s'.queue q).phase = if (s'.queue q).cqTail = 0 then !(s.queue q).phase else (s.queue q).phase) ∧
        ∀ d f, s.started = [c] → (s.queue q).held = some (d, f) →
          (s'.queue q).held = none ∧ ∃ e ∈ s'.started, e.queue = q ∧ e.desc = d ∧ e.fin = f) ∧
    (∀ id c, s.cmd id = some c → c.queue = q → (c.fin = none ∨ (s.queue q).full = true ∨ s.chiefRuns = false) →
      Sys2Proof.Machine.exec (.completionRecordWrite id) s = .next s)

/-- A LAUNCH puts one root phrase on every member of the clause, in slot 0, at the program's entry, with one lane, the reserved base
ID of its member index and the sixteen arguments in s16 to s31; without the clause it completes with WEAVE_NONE, while alarmed
with ALARMED, and it waits for the clause's run (R133, R152, R177, R410, R411, R479). The oldest queued item of a tile becomes a
phrase in the lowest free slot; a tile with an empty queue and a free slot takes the oldest item of the member with the most,
where POLICY balances loads, and never otherwise (R61, R137, R140). -/
def Obligations.Launches : Prop :=
  (∀ (s : State) (id k : Nat) (c : Started), Takes s id 0x03 c → k = c.param0 % 64 →
      (s.alarmed = true → ∃ s', Sys2Proof.Machine.exec (.launch id) s = .next s' ∧ Finished s' id 0x52 0 0 0) ∧
      (s.alarmed = false → s.afterApply id k = false → s.clauseRec k = none →
        ∃ s', Sys2Proof.Machine.exec (.launch id) s = .next s' ∧ Finished s' id 0x17 0 0 0) ∧
      (∀ r, s.alarmed = false → s.clauseRec k = some r → s.clauseTaken k = true →
        Sys2Proof.Machine.exec (.launch id) s = .next s) ∧
      (∀ r x a, s.alarmed = false → s.afterApply id k = false → s.clauseRec k = some r → s.clauseSt k = some x →
        s.clauseTaken k = false → a = c.le 8 8 → a ≠ 0 → a % 8 ≠ 0 →
        ∃ s', Sys2Proof.Machine.exec (.launch id) s = .next s' ∧ Finished s' id 0x72 8 0 0 ∧ s'.tiles = s.tiles) ∧
      (∀ r x a, s.alarmed = false → s.afterApply id k = false → s.clauseRec k = some r → s.clauseSt k = some x →
        s.clauseTaken k = false → a = c.le 8 8 →
        (a = 0 ∨ a % 8 = 0 ∧ a + 128 ≤ hbmUserEnd ∧ s.hbmAsleep a 128 = false ∧ s.struckLines a 128 = []) →
        r.members.Nodup → (∀ t ∈ r.members, t < s.tiles.length) → s.hbm.Wf →
        ∃ s' y v, Sys2Proof.Machine.exec (.launch id) s = .next s' ∧ s'.cmd id = some c ∧ s'.clauseSt k = some y ∧
          y.frozen = false ∧ y.satMask = 0 ∧ y.gens = List.replicate 16 0 ∧ y.run = some v ∧ v.cmd = id ∧
          v.tStart = s.timer ∧ (s.trans.recording = false → s'.hbm = s.hbm) ∧
          (∀ u, u ∉ r.members → s'.tile u = s.tile u) ∧
          ∀ i t, r.members[i]? = some t →
            (∃ ph, s'.phraseAt t 0 = some ph ∧ ph.pc = (s.tile t).entry ∧ ph.lanes = 1 ∧ ph.base = 0xFFFE00 + i ∧
              ph.rs 1 = BitVec.ofNat 64 (0xFFFE00 + i) ∧ ph.rs 2 = 1 ∧
              (∀ j : BitVec 5, 3 ≤ j → j < 16 → ph.rs j = 0) ∧
              (∀ j : BitVec 5, 16 ≤ j → ph.rs j =
                if a = 0 then 0 else BitVec.ofNat 64 (leNat ((List.range 8).map fun b => s.hbmByte (a + 8 * (j.toNat - 16) + b))))) ∧
            (∀ p, p ≠ 0 → s'.phraseAt t p = none) ∧ (s'.tile t).wq = [] ∧ (s'.tile t).partc = List.replicate 16 1 ∧
            (s'.tile t).fault.valid = false ∧ (s'.tile t).sram = (s.tile t).sram)) ∧
  (∀ (s : State) (t : Nat), t < s.tiles.length → s.works t = true →
      (∀ i rest p, (s.tile t).wq = i :: rest → s.phraseAt t p = none → p < (s.tile t).slots.length →
        (∀ q, q < p → s.phraseAt t q ≠ none) →
        ∃ s' ph, Sys2Proof.Machine.exec (.phraseStart t) s = .next s' ∧ s'.phraseAt t p = some ph ∧
          (i.resume = some ph ∨ i.resume = none ∧ ph.pc = i.entry ∧ ph.lanes = i.lanes ∧ ph.base = i.base ∧
            (∀ j : BitVec 5, 16 ≤ j → ph.rs j = i.args.getD (j.toNat - 16) 0)) ∧
          (s'.tile t).wq = rest ∧ (∀ q, q ≠ p → s'.phraseAt t q = s.phraseAt t q) ∧ s'.hbm = s.hbm ∧
          ∀ u, u ≠ t → s'.tile u = s.tile u) ∧
      (∀ c u i rest, (s.tile t).clause = some c → s.policy.loadBalance = 1 → s.policy.det ≠ 1 → (s.tile t).wq = [] →
        (∃ p, p < (s.tile t).slots.length ∧ s.phraseAt t p = none) → u ∈ s.members c → u < s.tiles.length →
        (∀ w ∈ s.members c, (s.tile w).wq.length < (s.tile u).wq.length ∨
          (s.tile w).wq.length = (s.tile u).wq.length ∧ w = u) → (s.tile u).wq = i :: rest →
        ∃ s', Sys2Proof.Machine.exec (.loadBalanceTake t) s = .next s' ∧ (s'.tile t).wq = [i] ∧ (s'.tile u).wq = rest ∧
          (∀ w, w ≠ t → w ≠ u → s'.tile w = s.tile w) ∧ ∀ w p, s'.phraseAt w p = s.phraseAt w p) ∧
      ((s.policy.loadBalance = 0 ∨ s.policy.det = 1 ∨ (s.tile t).wq ≠ []) →
        Sys2Proof.Machine.exec (.loadBalanceTake t) s = .next s))

/-- A run completes once nothing of its clause is outstanding: one that a fault froze with the fault of the first member that
recorded one, else with UNCORR, SAT or OK; the clause then has no run, and one whose work goes on does not complete. Stated for a run with no gloss and
no REPLAY (R139, R176, R413, R414). -/
def Obligations.RunCompletes : Prop :=
  ∀ (s : State) (k : Nat) (x : ClauseSt) (r : Run) (c : Started), s.chiefRuns = true → s.clauseSt k = some x →
    x.run = some r → r.gloss = none → s.replay = none → s.cmd r.cmd = some c → c.fin = none →
    (s.runOver k = false → Sys2Proof.Machine.exec (.clauseRunComplete k) s = .next s) ∧
    (s.runOver k = true →
      ∃ s', Sys2Proof.Machine.exec (.clauseRunComplete k) s = .next s' ∧
        s'.clauseSt k = some { x with run := none } ∧ s' = { s with clauses := s'.clauses, started := s'.started } ∧
        (∀ t f, x.frozen = true → (s.members k).find? (fun u => (s.tile u).fault.valid) = some t → f = (s.tile t).fault →
          Finished s' r.cmd (if f.cause = 5 then 0x30 else 0x70)
            (f.cause + f.phrase * 2 ^ 8 + t * 2 ^ 16 + f.pc * 2 ^ 32) f.detail.toNat f.addr.toNat) ∧
        (x.frozen = false ∨ (∀ u ∈ s.members k, (s.tile u).fault.valid = false) →
          (x.uncorr = true → Finished s' r.cmd 0x41 (x.struck.getD 0) 0 0) ∧
          (x.uncorr = false → x.satMask ≠ 0 → Finished s' r.cmd 0x40 0 x.satMask.toNat 0) ∧
          (x.uncorr = false → x.satMask = 0 → Finished s' r.cmd 0 0 0 0)))

/-- A COPY leaves its destination with the source's bytes and changes no other byte, refuses an overlap and an address outside user
memory, and does nothing for length 0; a BAR2 write stores its bytes, and none above the part that is software's. Stated where
nothing records, no line is struck and the halves are awake (R390, R395, R399, R412, R413, R415). -/
def Obligations.HostTransfers : Prop :=
  (∀ (s : State) (id : Nat) (c : Started) (n src dst : Nat), Takes s id 0x04 c → n = c.le 0x18 8 → src = c.le 8 8 →
    dst = c.le 0x10 8 →
    (∀ data, n = 0 → ∃ s', Sys2Proof.Machine.exec (.copy id data) s = .next s' ∧ Finished s' id 0 0 0 0 ∧
      s' = { s with started := s'.started }) ∧
    (∀ data, 0 < n → c.param0 = 0 → src < dst + n → dst < src + n → src + n ≤ hbmUserEnd → dst + n ≤ hbmUserEnd →
      ∃ s', Sys2Proof.Machine.exec (.copy id data) s = .next s' ∧ Finished s' id 0x72 8 0 0 ∧ s'.hbm = s.hbm) ∧
    (∀ data, 0 < n → c.param0 = 0 → src + n ≤ hbmUserEnd → hbmUserEnd < dst + n →
      ∃ s', Sys2Proof.Machine.exec (.copy id data) s = .next s' ∧ Finished s' id 0x72 0x10 0 0 ∧ s'.hbm = s.hbm) ∧
    (∀ data, 0 < n → c.param0 = 0 → src + n ≤ hbmUserEnd → dst + n ≤ hbmUserEnd → (dst + n ≤ src ∨ src + n ≤ dst) →
      (s.hbmAsleep src n = true ∨ s.hbmAsleep dst n = true) →
      ∃ s', Sys2Proof.Machine.exec (.copy id data) s = .next s' ∧ Finished s' id 0x30 0 0 0 ∧ s'.hbm = s.hbm) ∧
    (0 < n → s.hbm.Wf → s.bad = [] → (∀ i, (s.stack i).offline = false) → s.trans.recording = false →
      (∀ data, c.param0 = 0 → src + n ≤ hbmUserEnd → dst + n ≤ hbmUserEnd → (dst + n ≤ src ∨ src + n ≤ dst) →
        s.hbmAsleep src n = false → s.hbmAsleep dst n = false →
        ∃ s', Sys2Proof.Machine.exec (.copy id data) s = .next s' ∧ Finished s' id 0 0 0 0 ∧ s'.tiles = s.tiles ∧
          ∀ b, s'.hbmByte b = if dst ≤ b ∧ b < dst + n then s.hbmByte (src + (b - dst)) else s.hbmByte b) ∧
      (∀ l, c.param0 = 4 → src + n ≤ hbmUserEnd → s.hbmAsleep src n = false →
        ∃ s', Sys2Proof.Machine.exec (.copy id (.ok l)) s = .next s' ∧ Finished s' id 0 0 0 0 ∧ s'.hbm = s.hbm ∧
          s'.out = s.out ++ [Output.hostWrite dst ((List.range n).map fun i => s.hbmByte (src + i))]) ∧
      (∀ l : List Byte, l.length = n → c.param0 = 1 → dst + n ≤ hbmUserEnd → s.hbmAsleep dst n = false →
        ∃ s', Sys2Proof.Machine.exec (.copy id (.ok l)) s = .next s' ∧ Finished s' id 0 0 0 0 ∧ s'.tiles = s.tiles ∧
          ∀ b, s'.hbmByte b = if dst ≤ b ∧ b < dst + n then l.getD (b - dst) 0 else s.hbmByte b))) ∧
  (∀ (s : State) (off : Nat) (l : List Byte), s.hostUp = true → s.sanitizing = false →
    off + l.length ≤ 2 ^ s.dev.bar2Log2 →
    (hbmUserEnd ≤ s.bar2Start + off → ∃ s', Sys2Proof.Machine.exec (.bar2Write off l) s = .next s' ∧ s'.hbm = s.hbm) ∧
    (s.bar2Start + off + l.length ≤ hbmUserEnd → s.hbmAsleep (s.bar2Start + off) l.length = false → s.bad = [] →
      (∀ i, (s.stack i).offline = false) → s.trans.recording = false →
      ∃ s', Sys2Proof.Machine.exec (.bar2Write off l) s = .next s' ∧ s'.tiles = s.tiles ∧
        ∀ b, s'.hbmByte b = if s.bar2Start + off ≤ b ∧ b < s.bar2Start + off + l.length
          then l.getD (b - (s.bar2Start + off)) 0 else s.hbmByte b))

/-! ## The weave, contexts and transcripts (02, 04, 12, 13) -/

/-- LOAD_WEAVE reports the first failing check: a wrong header leaves the weave staged before in place; a later failure leaves none
staged: a missing signature, no owner key whose entry passes, a key of another ID, a signature that fails or whose two
verifications disagree (one authentication failure), a wrong digest, a failed check of the body. A weave that passes is staged, a
signed one ending the run of authentication failures; what is installed stays. APPLY_WEAVE completes with WEAVE_NONE without a
staged weave and with WEAVE_BUSY while a clause is not quiescent, changing nothing; else the staged weave is installed, its digest
reported and its tiles given their clauses (R44, R64-R67, R69, R70, R74, R77, R456, R476, R479, R484). -/
def Obligations.WeaveCommands : Prop :=
  (∀ (s : State) (id a n : Nat) (d : Started), Takes s id 0x01 d → a = d.le 8 8 → n = d.le 0x10 8 →
    (s.alarmed = true →
      ∃ s', Sys2Proof.Machine.exec (.loadWeave id none) s = .next s' ∧ Finished s' id 0x52 0 0 0 ∧
        s'.weave = { s.weave with loadStatus := 0x52 }) ∧
    (s.alarmed = false → s.serialTurn id = true → s.alm.authRun < max 1 s.alm.authLimit.toNat →
      (n < 256 ∨ a % 64 ≠ 0 ∨ hbmUserEnd < a + n) →
      ∃ s', Sys2Proof.Machine.exec (.loadWeave id none) s = .next s' ∧ Finished s' id 0x10 0 0 0 ∧
        s'.weave = { s.weave with loadStatus := 0x10 }) ∧
    (∀ h sig raw : List Byte, ∀ so : Nat, s.alarmed = false → s.serialTurn id = true →
      s.alm.authRun < max 1 s.alm.authLimit.toNat → 256 ≤ n → a % 64 = 0 → a + n ≤ hbmUserEnd →
      s.hbmAsleep a n = false → s.bad = [] → (∀ i, (s.stack i).offline = false) → h = s.hbmBytes a 256 →
      so = leAt h 0x20 8 → sig = (if hdrSigned h then s.hbmBytes (a + so) (n - so) else []) →
      raw = h ++ (s.hbmBytes (a + 0x100) (hdrBody h) ++ sig) →
      (slice h 0 4 ≠ [0x4E, 0x57, 0x56, 0x31] →
        ∃ s', Sys2Proof.Machine.exec (.loadWeave id none) s = .next s' ∧ Finished s' id 0x10 0 0 0 ∧
          s'.weave = { s.weave with loadStatus := 0x10 }) ∧
      (∀ o, s.hdrFail n h = some o →
        ∃ s', Sys2Proof.Machine.exec (.loadWeave id none) s = .next s' ∧ Finished s' id 0x10 0 o 0 ∧
          s'.weave = { s.weave with loadStatus := 0x10 }) ∧
      (s.hdrFail n h = none →
        (hdrSigned h = false → s.weave.requireSig = true →
          ∃ s', Sys2Proof.Machine.exec (.loadWeave id none) s = .next s' ∧ Finished s' id 0x50 0 6 0 ∧
            s'.weave = { s.weave with loadStatus := 0x50, staged := none }) ∧
        (hdrSigned h = true → s.sec.upset = [] → s.keyPasses 3 = false →
          ∃ s', Sys2Proof.Machine.exec (.loadWeave id none) s = .next s' ∧ Finished s' id 0x50 0 0x80 0 ∧
            s'.weave = { s.weave with loadStatus := 0x50, staged := none } ∧ s'.hasKey 3 = false ∧
            s'.sec.ksBad = (if s.hasKey 3 then satAdd 8 s.sec.ksBad 1 else s.sec.ksBad)) ∧
        (∀ e, hdrSigned h = true → s.keyPasses 3 = true → s.key 3 = some e → keyId e.key ≠ slice h 0x80 32 →
          ∃ s', Sys2Proof.Machine.exec (.loadWeave id none) s = .next s' ∧ Finished s' id 0x50 0 0x80 0 ∧
            s'.weave = { s.weave with loadStatus := 0x50, staged := none }) ∧
        (∀ e, hdrSigned h = true → s.keyPasses 3 = true → s.key 3 = some e → keyId e.key = slice h 0x80 32 →
          (Config.falconVerify e.key h (sig.take (leAt h 0x28 4)) = false ∨ s.agrees .signature = false) →
          (s.agrees .signature = true ∨ s.alm.authRun + 1 < max 1 s.alm.authLimit.toNat) →
          ∃ s', Sys2Proof.Machine.exec (.loadWeave id none) s = .next s' ∧ Finished s' id 0x50 0 so 0 ∧
            s'.weave = { s.weave with loadStatus := 0x50, staged := none } ∧
            s'.alm.authRun = s.alm.authRun + (if s.agrees .signature then 0 else 1)) ∧
        ((hdrSigned h = false ∧ s.weave.requireSig = false ∨
            hdrSigned h = true ∧ s.keyPasses 3 = true ∧ ∃ e, s.key 3 = some e ∧ keyId e.key = slice h 0x80 32 ∧
              Config.falconVerify e.key h (sig.take (leAt h 0x28 4)) = true) → s.sec.upset = [] →
          (shake256 64 (slice raw 0x100 (hdrBody raw)) ≠ slice raw 0x30 64 →
            ∃ s', Sys2Proof.Machine.exec (.loadWeave id none) s = .next s' ∧ Finished s' id 0x11 0 0x30 0 ∧
              s'.weave = { s.weave with loadStatus := 0x11, staged := none }) ∧
          (∀ f, (s.checkBody raw).1 = .error f →
            ∃ s', Sys2Proof.Machine.exec (.loadWeave id none) s = .next s' ∧ Finished s' id f.1 f.2.1 f.2.2 0 ∧
              s'.weave = { s.weave with loadStatus := f.1, staged := none }) ∧
          (∀ w, (s.checkBody raw).1 = .ok w →
            ∃ s', Sys2Proof.Machine.exec (.loadWeave id none) s = .next s' ∧ Finished s' id 0 0 0 0 ∧
              s'.weave = { s.weave with loadStatus := 0, staged := some w } ∧ s'.hbm = s.hbm ∧ s'.tiles = s.tiles ∧
              s'.alm.authRun = if hdrSigned h then 0 else s.alm.authRun))))) ∧
  (∀ (s : State) (id : Nat) (d : Started), Takes s id 0x02 d →
    (s.alarmed = true → ∃ s', Sys2Proof.Machine.exec (.applyWeave id none) s = .next s' ∧ Finished s' id 0x52 0 0 0) ∧
    (s.alarmed = false → s.serialTurn id = true → s.weave.staged = none →
      ∃ s', Sys2Proof.Machine.exec (.applyWeave id none) s = .next s' ∧ Finished s' id 0x17 0 0 0 ∧
        s'.weave = { s.weave with applyStatus := 0x17 }) ∧
    (∀ w, s.alarmed = false → s.serialTurn id = true → s.weave.staged = some w → s.applyCheck w = none →
      (∃ c ∈ s.applyEnds w, s.quiescent c = false) →
      ∃ s', Sys2Proof.Machine.exec (.applyWeave id none) s = .next s' ∧ Finished s' id 0x16 0 0 0 ∧
        s' = { s with started := s'.started, weave := { s.weave with applyStatus := 0x16 } }) ∧
    (∀ w, s.alarmed = false → s.serialTurn id = true → s.weave.staged = some w → s.applyCheck w = none →
      (∀ c ∈ s.applyEnds w, s.quiescent c = true) → (∀ x ∈ s.clauses, x.run = none) → (s.stack 11).offline = false →
      (∀ r, s.replay = some r → r.cmd ≠ id) →
      ∃ s' v, Sys2Proof.Machine.exec (.applyWeave id none) s = .next s' ∧ Finished s' id 0 0 0 0 ∧
        s'.weave.staged = none ∧ s'.weave.applyStatus = 0 ∧ s'.weave.installed = some v ∧
        (w.isPartial = false → v = { w with clauses := w.installs } ∧ s'.weave.digest = w.bodyDigest ∧
          s'.weave.locked = (w.policy.lock == 1)) ∧
        (w.isPartial = true → s'.weave.digest = shake256 64 (s.weave.digest ++ w.bodyDigest) ∧ s'.weave.merged = true ∧
          s'.weave.locked = s.weave.locked ∧ v.policy = s.policy) ∧
        (∀ t c, t < s.tiles.length → w.owner t = some c → (s'.tile t).clause = some c ∧
          (s'.tile t).imem = ((w.programs.find? fun p => p.clause == c).map (·.code)).getD []) ∧
        ∀ t, (∃ c ∈ s.applyEnds w, t ∈ s.members c) → w.owner t = none → (s'.tile t).clause = none ∧ (s'.tile t).imem = []))

/-- A readback writes the installed weave, its header alone where the buffer is shorter, nothing where it is below 256 bytes, and
completes with WEAVE_NONE where nothing is installed; during an apply it waits (R78, R81, R82). -/
def Obligations.WeaveReadbacks : Prop :=
  ∀ (s : State) (a n : Nat), s.chiefRuns = true → s.weave.rbBusy = true → a = s.weave.rbAddr.toNat →
    n = s.weave.rbLen.toNat →
    (s.applying = true → Sys2Proof.Machine.exec .weaveReadback s = .next s) ∧
    (s.applying = false → s.weave.installed = none →
      ∃ s', Sys2Proof.Machine.exec .weaveReadback s = .next s' ∧
        s' = { s with weave := { s.weave with rbBusy := false, rbDone := true, rbStatus := 0x17 } }) ∧
    (∀ w l, s.applying = false → s.weave.installed = some w → l = s.readback w → a % 64 = 0 → s.bad = [] →
      (∀ i, (s.stack i).offline = false) → a + l.length ≤ hbmUserEnd → s.hbmAsleep a l.length = false →
      ∃ s', Sys2Proof.Machine.exec .weaveReadback s = .next s' ∧
        s'.weave = { s.weave with rbBusy := false, rbDone := true, rbStatus := if n < l.length then 2 else 0 } ∧
        256 ≤ l.length ∧
        ∀ b, s'.hbmByte b =
          if a ≤ b ∧ b < a + (if l.length ≤ n then l.length else if 256 ≤ n then 256 else 0) then l.getD (b - a) 0
          else s.hbmByte b)

/-- A SAVE_CTX holds its clause until what it issued has completed, then writes the image and releases the clause, or refuses a
misaligned address and a short buffer; a RESTORE_CTX refuses a clause at work or held and puts every saved phrase, item and arrival back
on the member of the same index, with its run in progress (R34, R178, R179, R410, R413, R416, R417, R420, R479, R533). -/
def Obligations.Contexts : Prop :=
  (∀ (s : State) (id k : Nat) (d : Started) (r : ClauseRec), Takes s id 0x05 d → k = d.param0 % 64 →
    s.afterApply id k = false →
    (s.clauseRec k = none → ∃ s', Sys2Proof.Machine.exec (.saveCtx id) s = .next s' ∧ Finished s' id 0x17 0 0 0) ∧
    (s.clauseRec k = some r → s.settled k = false →
      ∃ s', Sys2Proof.Machine.exec (.saveCtx id) s = .next s' ∧ s'.cmd id = some d ∧ s'.hbm = s.hbm ∧
        (∀ t ∈ r.members, t < s.tiles.length → s'.tile t = { s.tile t with held := true }) ∧
        ∀ t, t ∉ r.members → s'.tile t = s.tile t) ∧
    (s.clauseRec k = some r → s.settled k = true → s.frozen k = false → d.le 8 8 % 64 ≠ 0 →
      ∃ s', Sys2Proof.Machine.exec (.saveCtx id) s = .next s' ∧ Finished s' id 0x72 8 0 0 ∧ s'.hbm = s.hbm) ∧
    (∀ a img, s.clauseRec k = some r → s.settled k = true → s.frozen k = false → a = d.le 8 8 →
      img = (s.holdClause k false).ctxImage k (d.le 0x18 4) → a % 64 = 0 → d.le 0x18 4 % 64 = 0 →
      d.le 0x18 4 ≤ r.members.length * sramSize → s.ctxRegion k a img.length = true →
      (d.le 0x10 8 < img.length →
        ∃ s', Sys2Proof.Machine.exec (.saveCtx id) s = .next s' ∧ Finished s' id 0x72 0x10 img.length 0 ∧ s'.hbm = s.hbm) ∧
      (img.length ≤ d.le 0x10 8 → s.hbmAsleep a img.length = false → s.bad = [] → (∀ i, (s.stack i).offline = false) →
        bitAt d.param0 8 = false →
        ∃ s', Sys2Proof.Machine.exec (.saveCtx id) s = .next s' ∧ Finished s' id 0 img.length 0 0 ∧
          (∀ t p, s'.phraseAt t p = s.phraseAt t p) ∧
          (∀ t ∈ r.members, t < s.tiles.length → (s'.tile t).held = false) ∧
          ∀ b, s'.hbmByte b = if a ≤ b ∧ b < a + img.length then img.getD (b - a) 0 else s.hbmByte b))) ∧
  (∀ (s : State) (id k : Nat) (d : Started) (r : ClauseRec), Takes s id 0x06 d → k = d.param0 % 64 →
    (s.alarmed = true → ∃ s', Sys2Proof.Machine.exec (.restoreCtx id) s = .next s' ∧ Finished s' id 0x52 0 0 0) ∧
    (s.alarmed = false → s.afterApply id k = false → s.clauseRec k = none →
      ∃ s', Sys2Proof.Machine.exec (.restoreCtx id) s = .next s' ∧ Finished s' id 0x17 0 0 0) ∧
    (s.alarmed = false → s.afterApply id k = false → s.clauseRec k = some r →
      (s.clauseTaken k = true ∨ ∃ t ∈ r.members, (s.tile t).dbg.held = true ∨ (s.tile t).held = true ∨ s.mbHeld t = true) →
      ∃ s', Sys2Proof.Machine.exec (.restoreCtx id) s = .next s' ∧ Finished s' id 0x16 0 0 0 ∧ s'.tiles = s.tiles) ∧
    (∀ x y b, s.alarmed = false → s.afterApply id k = false → s.clauseRec k = some r → s.clauseTaken k = false →
      (∀ t ∈ r.members, (s.tile t).dbg.held = false ∧ (s.tile t).held = false ∧ s.mbHeld t = false) → s.clauseSt k = some y →
      d.le 8 8 + d.le 0x10 8 ≤ hbmUserEnd → s.hbmAsleep (d.le 8 8) (d.le 0x10 8) = false → s.bad = [] →
      (∀ i, (s.stack i).offline = false) → b = s.hbmBytes (d.le 8 8) (d.le 0x10 8) →
      (slice b 0 6 ≠ [0x4E, 0x43, 0x58, 0x31, 1, 0] →
        ∃ s', Sys2Proof.Machine.exec (.restoreCtx id) s = .next s' ∧ Finished s' id 0x20 0 0 0 ∧ s'.tiles = s.tiles) ∧
      (ctxRead b = some x → slice b 0x20 32 = s.progDigest k → s.ctxFits k x = true → s.osierFits k x = true →
        (s.ctxKeysOk k x = false →
          ∃ s', Sys2Proof.Machine.exec (.restoreCtx id) s = .next s' ∧ Finished s' id 0x21 0 0 0 ∧ s'.tiles = s.tiles) ∧
        (s.ctxKeysOk k x = true → x.members = r.members.length → x.tiles.length = r.members.length → r.members.Nodup →
          (∀ t ∈ r.members, t < s.tiles.length) → (x.phrases.map fun e => (e.1, e.2.1)).Nodup →
          (∀ e ∈ x.phrases, e.1 < r.members.length ∧ e.2.1 < 64) →
          ∃ s' z v, Sys2Proof.Machine.exec (.restoreCtx id) s = .next s' ∧ s'.clauseSt k = some z ∧ z.gens = x.gens ∧
            z.run = some v ∧ v.cmd = id ∧ z.frozen = false ∧ s'.hbm = s.hbm ∧
            (∀ e ∈ x.phrases, s'.phraseAt (r.members.getD e.1 0) e.2.1 = some e.2.2) ∧
            (∀ (i t : Nat) (c : TileCtx), r.members[i]? = some t → x.tiles[i]? = some c →
              (s'.tile t).wq = c.items ∧ (s'.tile t).partc = c.partc ∧ (s'.tile t).arr = c.arr) ∧
            ∀ t, t ∉ r.members → s'.tile t = s.tile t))))

/-- TRANSCRIPT starts and stops the recorder, and needs a ring; a REPLAY checks its transcript and begins, passes a LAUNCH of
another clause, and completes with OK after its last entry (R410, R443, R445-R447, R479). -/
def Obligations.Transcripts : Prop :=
  (∀ (s : State) (id : Nat) (d : Started), Takes s id 0x30 d →
    (d.param0 % 2 = 1 → s.trans.recording = true →
      ∃ s', Sys2Proof.Machine.exec (.transcriptStart id) s = .next s' ∧ Finished s' id 0 0 0 0 ∧
        s' = { s with started := s'.started }) ∧
    (d.param0 % 2 = 1 → s.trans.recording = false → (∀ r ∈ s.regions, r.kind ≠ 3) →
      ∃ s', Sys2Proof.Machine.exec (.transcriptStart id) s = .next s' ∧ Finished s' id 0x72 4 0 0 ∧
        s' = { s with started := s'.started }) ∧
    (d.param0 % 2 = 1 → s.trans.recording = false → (∃ r ∈ s.regions, r.kind = 3) →
      ∃ s', Sys2Proof.Machine.exec (.transcriptStart id) s = .next s' ∧ Finished s' id 0 0 0 0 ∧
        s'.trans.recording = true ∧ s'.trans.outbound = (d.param0 / 2 % 2 == 1) ∧ s'.trans.hostSeq = 0 ∧
        s'.tiles = s.tiles) ∧
    (d.param0 % 2 = 0 →
      ∃ s', Sys2Proof.Machine.exec (.transcriptStop id) s = .next s' ∧ Finished s' id 0 0 0 0 ∧
        s'.trans.recording = false ∧ s'.tiles = s.tiles ∧ (s.trans.recording = false → s'.hbm = s.hbm))) ∧
  (∀ (s : State) (id k a n : Nat) (d : Started), Takes s id 0x31 d → k = d.param0 % 64 → a = d.le 8 8 →
    n = d.le 0x10 8 →
    (s.replay = none → s.alarmed = true →
      ∃ s', Sys2Proof.Machine.exec (.replay id) s = .next s' ∧ Finished s' id 0x52 0 0 0) ∧
    (s.replay = none → s.alarmed = false → s.afterApply id k = false → s.clauseRec k = none →
      ∃ s', Sys2Proof.Machine.exec (.replay id) s = .next s' ∧ Finished s' id 0x17 0 0 0) ∧
    (s.replay = none → s.alarmed = false → s.afterApply id k = false → (s.clauseRec k).isSome = true →
      s.clauseTaken k = false →
      (a % 32 ≠ 0 → ∃ s', Sys2Proof.Machine.exec (.replay id) s = .next s' ∧ Finished s' id 0x72 8 0 0) ∧
      (a % 32 = 0 → a + n ≤ hbmUserEnd → s.hbmAsleep a n = false → s.bad = [] → (∀ i, (s.stack i).offline = false) →
        (s.transcript (s.hbmBytes a n) = none →
          ∃ s', Sys2Proof.Machine.exec (.replay id) s = .next s' ∧ Finished s' id 0x72 8 0 0 ∧ s'.replay = none) ∧
        (s.transcript (s.hbmBytes a n) ≠ none →
          ∃ s' r, Sys2Proof.Machine.exec (.replay id) s = .next s' ∧ s'.replay = some r ∧ r.cmd = id ∧ r.clause = k ∧
            r.pos = 0 ∧ r.applied = 0 ∧ s'.cmd id = some d ∧ s'.tiles = s.tiles))) ∧
    (∀ r es, s.replay = some r → r.cmd = id → trEntries (r.len / 32 + 1) 0 (s.hbmBytes r.addr r.len) = some es →
      (∀ e, es[r.pos]? = some e → e.type = 4 → e.ref ≠ r.clause →
        Sys2Proof.Machine.exec (.replay id) s = .next { s with replay := some { r with pos := r.pos + 1 } }) ∧
      (r.pos = es.length → (∀ x ∈ s.clauses, x.run = none) → (∀ m, (s.link m).waiting = []) → r.satSeen = false →
        ∃ s' d0 d1, Sys2Proof.Machine.exec (.replay id) s = .next s' ∧ Finished s' id 0 d0 d1 r.applied ∧
          s'.replay = none ∧ s'.tiles = s.tiles)))

/-! ## Security (13) -/

/-- ATTEST writes a report that carries the caller's nonce and the identity key ID, and completes with AUTH or ALARMED where there
is no identity, or one whose entry fails its tag, which is erased and counted; SESSION_OPEN draws its nonce or waits for the
hopper, numbers the session and sets its keys; SESSION_CLOSE erases them and a staged weave that carries key slots. Stated short
of the alarm's limit (R69, R274, R454, R456, R460-R470, R476, R479, R484). -/
def Obligations.Sessions : Prop :=
  (∀ (s : State) (id a : Nat) (d : Started), Takes s id 0x10 d → s.serialTurn id = true → a = d.le 8 8 →
    s.alm.authRun < max 1 s.alm.authLimit.toNat →
    (a % 64 ≠ 0 → ∃ s', Sys2Proof.Machine.exec (.attest id) s = .next s' ∧ Finished s' id 0x72 8 0 0 ∧ s'.hbm = s.hbm) ∧
    (a % 64 = 0 → a + 8032 ≤ hbmUserEnd → d.le 0x10 4 < 8032 →
      ∃ s', Sys2Proof.Machine.exec (.attest id) s = .next s' ∧ Finished s' id 0x72 0x10 8032 0 ∧ s'.hbm = s.hbm) ∧
    (∀ n, a % 64 = 0 → a + 8032 ≤ hbmUserEnd → 8032 ≤ d.le 0x10 4 → s.bad = [] → (∀ i, (s.stack i).offline = false) →
      n = (if s.hasKey 0 then 8032 else 1664) → s.hbmAsleep a n = false → s.keyPasses 0 = s.hasKey 0 →
      ∃ s' r, Sys2Proof.Machine.exec (.attest id) s = .next s' ∧ s'.tiles = s.tiles ∧ s'.sec = s.sec ∧
        Finished s' id (if s.hasKey 0 then 0 else if s.sec.idErased then 0x52 else 0x50) 0 0 0 ∧
        r.length = n ∧ slice r 0 4 = [0x4E, 0x41, 0x54, 0x31] ∧ leAt r 8 4 = n ∧
        slice r 0x10 32 = fitTo 32 (slice d.desc 0x18 32) ∧ slice r 0x30 32 = s.idKeyId ∧
        ∀ b, s'.hbmByte b = if a ≤ b ∧ b < a + n then r.getD (b - a) 0 else s.hbmByte b) ∧
    (a % 64 = 0 → a + 8032 ≤ hbmUserEnd → 8032 ≤ d.le 0x10 4 → s.bad = [] → (∀ i, (s.stack i).offline = false) →
      s.hbmAsleep a 1664 = false → s.hasKey 0 = true → s.keyPasses 0 = false →
      s.alm.authRun + 1 < max 1 s.alm.authLimit.toNat →
      ∃ s', Sys2Proof.Machine.exec (.attest id) s = .next s' ∧
        Finished s' id (if s.sec.idErased then 0x52 else 0x50) 0 0 0 ∧ s'.hasKey 0 = false ∧
        (∀ k, k ≠ 0 → s'.hasKey k = s.hasKey k) ∧ s'.sec.ksBad = satAdd 8 s.sec.ksBad 1 ∧
        s'.alm.authRun = s.alm.authRun + if s.agrees (.entry 0) then 0 else 1)) ∧
  (∀ (s : State) (id a out : Nat) (d : Started), Takes s id 0x11 d → a = d.le 8 8 → out = d.le 0x18 8 →
    s.alm.authRun < max 1 s.alm.authLimit.toNat → s.sessionWaits id = false →
    (s.alarmed = true → ∃ s', Sys2Proof.Machine.exec (.sessionOpen id) s = .next s' ∧ Finished s' id 0x52 0 0 0) ∧
    (s.alarmed = false → s.serialTurn id = true → s.sec.idErased = false → s.hasKey 0 = false →
      ∃ s', Sys2Proof.Machine.exec (.sessionOpen id) s = .next s' ∧ Finished s' id 0x50 0 0 0 ∧ s'.sec = s.sec) ∧
    (∀ l, s.alarmed = false → s.serialTurn id = true → s.sec.idErased = false → s.hasKey 0 = true → s.keyPasses 0 = true →
      a + 1608 ≤ hbmUserEnd → d.le 0x10 4 = 1608 → s.hbmAsleep a 1608 = false → s.bad = [] →
      (∀ i, (s.stack i).offline = false) → l = s.hbmBytes a 1608 →
      (∀ o, sessionBad l = some o →
        ∃ s', Sys2Proof.Machine.exec (.sessionOpen id) s = .next s' ∧ Finished s' id 0x72 o 0 0 ∧ s'.sec = s.sec) ∧
      (sessionBad l = none → out + 2960 ≤ hbmUserEnd → 2960 ≤ d.le 0x20 4 →
        (s.serves false = false → s.serves true = false →
          ∃ s', Sys2Proof.Machine.exec (.sessionOpen id) s = .next s' ∧ Finished s' id 2 0 0 0 ∧ s'.sec = s.sec) ∧
        (s.ask (.session id l) = .wait →
          ∃ s', Sys2Proof.Machine.exec (.sessionOpen id) s = .next s' ∧ s' = { s with draws := s'.draws } ∧
            s'.draws.getLast? = some (.session id l)) ∧
        (∀ rnd t, s.ask (.session id l) = .ok rnd t → rnd.length = 64 → s.hbmAsleep out 2960 = false →
          ∃ s' r, Sys2Proof.Machine.exec (.sessionOpen id) s = .next s' ∧ Finished s' id 0 0 0 0 ∧
            s'.sec.session = true ∧ s'.sec.sessionId = s.sec.sessionId + 1 ∧ s'.sec.ownerId = [] ∧
            s'.hasKey 1 = true ∧ s'.hasKey 2 = true ∧ (∀ q ∈ s'.queues, q.hostReads = 0) ∧ s'.hopW = t.hopW ∧
            s'.hopE = t.hopE ∧ r.length = 2960 ∧ slice r 0 4 = [0x4E, 0x53, 0x52, 0x31] ∧
            leAt r 8 8 = (s.sec.sessionId + 1).toNat ∧ slice r 0x10 32 = rnd.take 32 ∧ slice r 0x30 32 = s.idKeyId ∧
            ∀ b, s'.hbmByte b = if out ≤ b ∧ b < out + 2960 then r.getD (b - out) 0 else s.hbmByte b)))) ∧
  (∀ (s : State) (id : Nat) (d : Started), Takes s id 0x12 d → s.serialTurn id = true →
    ∃ s', Sys2Proof.Machine.exec (.sessionClose id) s = .next s' ∧ Finished s' id 0 0 0 0 ∧ s'.sec.session = false ∧
      s'.hbm = s.hbm ∧ s'.tiles = s.tiles ∧
      (s.sec.session = true → s'.hasKey 1 = false ∧ s'.hasKey 2 = false ∧ s'.hasKey 3 = false ∧
        ∀ w, s.weave.staged = some w → w.pgkeys ≠ [] → s'.weave.staged = none) ∧
      ∀ k, k = 0 ∨ 4 ≤ k → s'.hasKey k = s.hasKey k)

/-- SANITIZE leaves every byte of HBM 0 but the record it writes, every tile without program, phrase or data, no key but the
identity, nothing installed and no debug level, and counts itself; it completes with HALF_ASLEEP while a half sleeps and refuses
a misaligned record address. Stated where every stack serves, no run is in progress and the identity's entry passes (R276, R471, R472, R473, R475). -/
def Obligations.Sanitizes : Prop :=
  ∀ (s : State) (id a : Nat) (d : Started), Takes s id 0x07 d → a = d.le 8 8 →
    (s.sanitizeTurn id = false → Sys2Proof.Machine.exec (.sanitize id) s = .next s) ∧
    (s.sanitizeTurn id = true → s.halfClosed true = true →
      ∃ s', Sys2Proof.Machine.exec (.sanitize id) s = .next s' ∧ Finished s' id 0x30 0 0 0 ∧ s'.hbm = s.hbm) ∧
    (s.sanitizeTurn id = true → s.halfClosed true = false → a % 64 ≠ 0 →
      ∃ s', Sys2Proof.Machine.exec (.sanitize id) s = .next s' ∧ Finished s' id 0x72 8 0 0 ∧ s'.hbm = s.hbm ∧
        s'.tiles = s.tiles ∧ s'.sec = s.sec) ∧
    (s.sanitizeTurn id = true → s.halfClosed true = false → a % 64 = 0 → a + 1472 ≤ hbmUserEnd →
      (∀ i, (s.stack i).offline = false) → (∀ x ∈ s.clauses, x.run = none) → s.replay = none →
      (s.started.map (·.id)).Nodup → s.keyPasses 0 = s.hasKey 0 →
      ∃ s' r, Sys2Proof.Machine.exec (.sanitize id) s = .next s' ∧ Finished s' id 0 0 0 0 ∧ r.length = 1472 ∧
        slice r 0 4 = [0x4E, 0x53, 0x4E, 0x31] ∧
        (∀ b, s'.hbmByte b = if a ≤ b ∧ b < a + 1472 then r.getD (b - a) 0 else 0) ∧
        (∀ t, (s'.tile t).slots = List.replicate 64 none ∧ (s'.tile t).sram = [] ∧ (s'.tile t).imem = [] ∧
          (s'.tile t).clause = none ∧ (s'.tile t).wq = []) ∧
        (∀ k, 1 ≤ k → s'.hasKey k = false) ∧ s'.hasKey 0 = s.hasKey 0 ∧ s'.weave.installed = none ∧
        s'.weave.staged = none ∧ s'.sec.session = false ∧ s'.sec.debug = 0 ∧ s'.hopW.units = [] ∧ s'.hopE.units = [] ∧
        s'.sec.sanitizeCount = s.sec.sanitizeCount + 1 ∧ s'.queues = s.queues)

/-- A challenge draws a nonce, or waits for the hopper; a submitted token spends it, and is refused with the first failing check, also
where the two paths of its signature check disagree, or sets the debug level; a lock brings the level to 0, releases every debug
hold and disables every breakpoint; an expired nonce is invalid. The refusal is stated short of the alarm's limits (R274, R476,
R484-R486, R488, R489, R529). -/
def Obligations.DebugUnlock : Prop :=
  ∀ (s : State),
    (s.hostUp = true →
      (∀ l t, s.ask .challenge = .ok l t →
        ∃ s', Sys2Proof.Machine.exec .dbgChallenge s = .next s' ∧ s'.sec = { s.sec with nonce := l, nonceValid := true } ∧
          s'.hopW = t.hopW ∧ s'.hopE = t.hopE ∧ s'.tiles = s.tiles) ∧
      (s.ask .challenge = .wait →
        ∃ s', Sys2Proof.Machine.exec .dbgChallenge s = .next s' ∧
          s' = { s with
            sec := { s.sec with nonceValid := false }
            draws := (s.liveDraws.filter fun x => x.key != (1, 0)) ++ [DrawReq.challenge] }) ∧
      (s.serves false = false → s.serves true = false →
        ∃ s', Sys2Proof.Machine.exec .dbgChallenge s = .next s' ∧
          s' = { s with sec := { s.sec with nonceValid := false, lastResult := 7 } }) ∧
      (∀ t r, t = s.sec.token.read 0 1376 → r = s.tokenResult t →
        (r ≠ 1 → s.alm.dbgRun + 1 < max 1 s.alm.dbgLimit.toNat → s.alm.authRun < max 1 s.alm.authLimit.toNat →
          s.agrees .token = true →
          ∃ s', Sys2Proof.Machine.exec .dbgSubmit s = .next s' ∧
            s' = { s with
              sec := { s.sec with nonceValid := false, lastResult := r, dbgFails := satAdd 8 s.sec.dbgFails 1 }
              alm := { s.alm with dbgRun := s.alm.dbgRun + 1 } }) ∧
        (r = 6 → s.alm.dbgRun + 1 < max 1 s.alm.dbgLimit.toNat → s.alm.authRun + 1 < max 1 s.alm.authLimit.toNat →
          s.agrees .token = false →
          ∃ s', Sys2Proof.Machine.exec .dbgSubmit s = .next s' ∧ s'.sec.lastResult = 6 ∧ s'.sec.nonceValid = false ∧
            s'.sec.debug = s.sec.debug ∧
            s'.alm = { s.alm with authRun := s.alm.authRun + 1, dbgRun := s.alm.dbgRun + 1 }) ∧
        (slice t 0 4 ≠ [0x4E, 0x44, 0x54, 0x31] → s.alm.dbgRun + 1 < max 1 s.alm.dbgLimit.toNat →
          s.alm.authRun < max 1 s.alm.authLimit.toNat →
          ∃ s', Sys2Proof.Machine.exec .dbgSubmit s = .next s' ∧ s'.sec.lastResult = 2 ∧ s'.sec.debug = s.sec.debug) ∧
        (r = 1 →
          ∃ s', Sys2Proof.Machine.exec .dbgSubmit s = .next s' ∧ s'.sec.debug = byteAt t 6 ∧ s'.sec.lastResult = 1 ∧
            s'.sec.nonceValid = false ∧ s'.sec.dbgFails = 0 ∧ s'.alm.dbgRun = 0 ∧
            (byteAt t 6 = 2 → ∀ k, 1 ≤ k → s'.hasKey k = false) ∧
            (byteAt t 6 = 1 → s'.sec.store = s.sec.store) ∧
            (byteAt t 6 ≠ 0 → s'.sec.debugOpens = s.sec.debugOpens + 1))) ∧
      ∃ s', Sys2Proof.Machine.exec .dbgLock s = .next s' ∧ s'.sec = { s.sec with debug := 0 } ∧ s'.mboxW.held = false ∧
        s'.mboxE.held = false ∧
        ∀ t, s'.tile t = { s.tile t with dbg := (s'.tile t).dbg } ∧ (s'.tile t).dbg.held = false ∧
          (s'.tile t).dbg.hold = false ∧ (s'.tile t).dbg.holdEn = false ∧ ∀ b ∈ (s'.tile t).dbg.bps, b.enable = false) ∧
    Sys2Proof.Machine.exec .dbgNonceExpire s = .next { s with sec := { s.sec with nonceValid := false } }

/-- At a debug level above 0, a write of hold holds the tile and its absence releases it, and a write that keeps hold and sets step
lets the live phrase it names issue once; at level 0 the write changes nothing of the tile and counts under source 4. At level 2
a steward is held, released or stepped; below it, it goes on (R529, R530, R532, R533, R534). An instruction at an armed breakpoint
does not issue: its tile is held with reason 2, and so are its clause's other members where bp_clause asks for it (R530). -/
def Obligations.DebugHolds : Prop :=
  (∀ (s : State) (t p b : Nat) (f : Fields) (x : Ctx) (op : BitVec 8) (u : Use) (c : Nat → Nat → Fields → Instr),
    (op, u, c) ∈ forms → s.issuable t p op f = some x → bpHit x.T p x.ph.pc = some b →
    ∃ s', Sys2Proof.Machine.exec (c t p f) s = .next s' ∧ (s'.tile t).dbg.held = true ∧ (s'.tile t).dbg.reason = 2 ∧
      (s'.tile t).dbg.phrase = p ∧ (s'.tile t).dbg.bp = b ∧ (s'.tile t).dbg.pc = x.ph.pc ∧ s' = { s with tiles := s'.tiles } ∧
      (∀ w, s'.tile w = { s.tile w with dbg := (s'.tile w).dbg, cnt := (s'.tile w).cnt }) ∧
      ((s.tile t).dbg.bpClause = true → ∀ w ∈ x.cr.members, w < s.tiles.length → (s'.tile w).dbg.held = true)) ∧
  ∀ (s : State), s.hostUp = true →
    (∀ (t : Nat) (val : BitVec 32), s.tileUp t = true → t < s.tiles.length →
      (∀ i ∈ [Instr.dbgCtlHold t val, Instr.dbgCtlStep t val], s.sec.debug = 0 → s.alm.dbgRun + 1 < max 1 s.alm.dbgLimit.toNat →
        ∃ s', Sys2Proof.Machine.exec i s = .next s' ∧ s'.tiles = s.tiles ∧ s'.alm.dbgRun = s.alm.dbgRun + 1) ∧
      (s.sec.debug ≠ 0 →
        ∃ s', Sys2Proof.Machine.exec (.dbgCtlHold t val) s = .next s' ∧ (s'.tile t).dbg.held = val.getLsbD 31 ∧
          (s'.tile t).dbg.hold = val.getLsbD 31 ∧ (s'.tile t).dbg.holdEn = val.getLsbD 29 ∧
          (s'.tile t).slots = (s.tile t).slots ∧ s'.hbm = s.hbm ∧ ∀ u, u ≠ t → s'.tile u = s.tile u) ∧
      (s.sec.debug ≠ 0 → val.getLsbD 31 = true → val.getLsbD 30 = true → (s.tile t).dbg.held = true →
        s.phraseAt t (val.toNat % 64) ≠ none →
        ∃ s', Sys2Proof.Machine.exec (.dbgCtlStep t val) s = .next s' ∧ (s'.tile t).dbg.stepPending = true ∧
          (s'.tile t).dbg.stepPhrase.toNat = val.toNat % 64 ∧ (s'.tile t).dbg.held = true ∧
          (s'.tile t).slots = (s.tile t).slots ∧ ∀ u, u ≠ t → s'.tile u = s.tile u)) ∧
    (∀ (h : Half) (val : BitVec 32), s.halfUp (isEast h) = true →
      (s.sec.debug = 2 →
        (∃ s', Sys2Proof.Machine.exec (.stewardHold h val) s = .next s' ∧ (s'.mbox (isEast h)).held = val.getLsbD 31 ∧
          (s'.mbox (isEast h)).hold = val.getLsbD 31 ∧ s'.mbox (!isEast h) = s.mbox (!isEast h) ∧ s'.tiles = s.tiles) ∧
        ∃ s', Sys2Proof.Machine.exec (.stewardStep h) s = .next s' ∧ (s'.mbox (isEast h)).held = true ∧
          ((s.mbox (isEast h)).held = false → (s'.mbox (isEast h)).internal = (s.mbox (isEast h)).internal) ∧
          s'.mbox (!isEast h) = s.mbox (!isEast h) ∧ s'.tiles = s.tiles) ∧
      (s.sec.debug ≠ 2 → s.alm.dbgRun + 1 < max 1 s.alm.dbgLimit.toNat →
        ∀ i ∈ [Instr.stewardHold h val, Instr.stewardStep h],
          ∃ s', Sys2Proof.Machine.exec i s = .next s' ∧ s'.mbox (isEast h) = s.mbox (isEast h) ∧
            s'.alm.dbgRun = s.alm.dbgRun + 1))

/-- A source that becomes present signals once: it is counted; under action 0 nothing more happens; under a higher one it is
latched, the interrupt raised, every run ended, the debug level 0 and the samplers disabled, and the keys of its action erased;
it does not signal again while it stays present: the range of temperatures, while any sensor stands outside it. The persistent failure of a hopper signals once an episode (R270, R476, R477,
R478). A write of ALM_POLICY takes effect in the fields it raises, and in every field at full debug; a write of ALM_CFG takes
effect in the fields it narrows; the rest of the alarm's registers stay (R480). -/
def Obligations.Alarms : Prop :=
  ((∀ (s : State) (k : Nat) (e : Instr) (u : List Check),
      ((k = 0 ∧ u = [] ∧ e = .meshBreach true) ∨
        (k = 1 ∧ u = [] ∧ ∃ y x, (x < s.alm.tLow.toInt ∨ (s.alm.tHigh.toNat : Int) < x) ∧ s.sensorOn y = true ∧
          e = .temperatureOutOfRange { sensor := y, temp := x }) ∨
        (k = 2 ∧ e = .backsideLight { present := true, upset := u })) →
      s.pwr.core = .running → s.pwr.stbyReset = false → k < s.alm.counts.length →
      (s.alm.present.getLsbD k = true →
        ∃ s', Sys2Proof.Machine.exec e s = .next s' ∧ s'.alm.counts = s.alm.counts ∧ s'.alm.latched = s.alm.latched) ∧
      (s.alm.present.getLsbD k = false →
        ∃ s', Sys2Proof.Machine.exec e s = .next s' ∧ s'.alm.present.getLsbD k = true ∧
          s'.alm.counts.getD k 0 = satAdd 16 (s.alm.counts.getD k 0) 1 ∧
          (s.alm.action k = 0 →
            s' = { s with alm := s'.alm, sec := { s.sec with upset := s.sec.upset ++ u } } ∧
            s'.alm.latched = s.alm.latched) ∧
          (s.alm.action k ≠ 0 → s'.alm.latched = s.alm.latched ||| (1 <<< k) ∧ s'.dev.irqStat.getLsbD 4 = true ∧
            s'.sec.debug = 0 ∧ s'.tksW.enable = false ∧ s'.tksE.enable = false ∧ (∀ x ∈ s'.clauses, x.run = none) ∧
            s'.weave.installed = s.weave.installed) ∧
          (s.alm.action k = 1 → (∀ x ∈ s.sec.store, x.torn = false ∧ Check.entry x.k ∉ s.sec.upset ++ u) →
            s'.sec.store = s.sec.store) ∧
          (s.alm.action k = 2 → ∀ j, 1 ≤ j → s'.hasKey j = false) ∧
          (s.alm.action k = 3 → s'.sec.store = [] ∧ s'.sec.idErased = true))) ∧
    (∀ (s : State) (k : Nat) (e : Instr) (u : List Check) (rest : Bool),
      ((k = 0 ∧ u = [] ∧ rest = false ∧ e = .meshBreach false) ∨
        (k = 1 ∧ u = [] ∧ ∃ y x, s.alm.tLow.toInt ≤ x ∧ x ≤ (s.alm.tHigh.toNat : Int) ∧ s.sensorOn y = true ∧
          rest = s.alm.hot.any (· != y) ∧ (rest = true → s.alm.present.getLsbD 1 = true) ∧
          e = .temperatureOutOfRange { sensor := y, temp := x }) ∨
        (k = 2 ∧ rest = false ∧ e = .backsideLight { present := false, upset := u })) →
      s.pwr.core = .running → s.pwr.stbyReset = false →
      ∃ s', Sys2Proof.Machine.exec e s = .next s' ∧
        s' = { s with alm := s'.alm, sec := { s.sec with upset := s.sec.upset ++ u } } ∧
        s'.alm.present.getLsbD k = rest ∧ s'.alm.counts = s.alm.counts ∧ s'.alm.latched = s.alm.latched) ∧
    (∀ (s : State) (x : Int) (l : List Nat), s.pwr.vigil = true → s.pwr.core = .off → s.pwr.stbyReset = false →
      s.alm.present.getLsbD 0 = false → s.alm.action 0 ≠ 0 → s.alm.tLow.toInt ≤ x → x ≤ (s.alm.tHigh.toNat : Int) →
      (∀ y ∈ s.alm.hot, y = .vigil) →
      ∃ s', Sys2Proof.Machine.exec (.vigilWake true { temp := x, torn := l }) s = .next s' ∧
        s'.alm.latched = s.alm.latched ||| 1 ∧ s'.alm.pendingReset = true ∧ s'.pwr = s.pwr ∧
        (2 ≤ s.alm.action 0 → ∀ j, 1 ≤ j → s'.hasKey j = false) ∧ ∀ e ∈ s'.sec.store, e.k ∈ l → e.torn = true) ∧
    (∀ (s : State) (h : Half), s.halfUp (isEast h) = true → (s.hop (isEast h)).entFail = true →
      ((s.hop (isEast h)).alarmed = true → Sys2Proof.Machine.exec (.entFailPersist h) s = .next s) ∧
      ((s.hop (isEast h)).alarmed = false →
        ∃ s', Sys2Proof.Machine.exec (.entFailPersist h) s = .next s' ∧ (s'.hop (isEast h)).alarmed = true ∧
          (5 < s.alm.counts.length → s'.alm.counts.getD 5 0 = satAdd 16 (s.alm.counts.getD 5 0) 1) ∧
          (s.alm.action 5 ≠ 0 → s'.alm.latched = s.alm.latched ||| 0x20 ∧ s'.sec.debug = 0)))) ∧
  (∀ (s : State) (val : BitVec 32), s.hostUp = true →
      (∃ s', Sys2Proof.Machine.exec (.almPolicyWrite val) s = .next s' ∧
        s' = { s with fw := { s.fw with settings := s'.fw.settings }, alm := { s.alm with policy := s'.alm.policy } } ∧
        ∀ k, k < 6 → s'.alm.action k =
          if s.alm.action k < val.toNat / 4 ^ k % 4 ∨ s.sec.debug = 2 then val.toNat / 4 ^ k % 4 else s.alm.action k) ∧
      ∃ s', Sys2Proof.Machine.exec (.almCfgWrite val) s = .next s' ∧
        s'.alm = { s.alm with
          tLow := if s.alm.tLow.toInt < (val.extractLsb' 24 8).toInt then val.extractLsb' 24 8 else s.alm.tLow
          tHigh := if (val.extractLsb' 16 8).toNat < s.alm.tHigh.toNat then val.extractLsb' 16 8 else s.alm.tHigh
          authLimit :=
            if max 1 (val.extractLsb' 8 8).toNat < max 1 s.alm.authLimit.toNat then
              BitVec.ofNat 8 (max 1 (val.extractLsb' 8 8).toNat) else s.alm.authLimit
          dbgLimit :=
            if max 1 (val.extractLsb' 0 8).toNat < max 1 s.alm.dbgLimit.toNat then
              BitVec.ofNat 8 (max 1 (val.extractLsb' 0 8).toNat) else s.alm.dbgLimit } ∧
        s' = { s with fw := { s.fw with settings := s'.fw.settings }, alm := s'.alm })

/-! ## Firmware, power, reset and calibration (05, 14, 16) -/

/-- FW_STAGE reports its first failing check and leaves the slots as they were, or writes the image to the slot that is free, takes
the next devices' answers, and leaves the slot valid or invalid as its digests verify; FW_ACTIVATE puts a valid slot in charge in
state 1, now or at the next start, or leaves the previous image in charge where the load fails; FW_CONFIRM raises the floor and
ends the fall-back; a forwarded image is checked, answered and staged, and a stream that is abandoned counts as refused. Every
change of the slots is a complete new copy of the records beside the one before. Stated short of the alarm's limit (R476, R479,
R484, R547-R562). -/
def Obligations.FirmwareUpdate : Prop :=
  (∀ (s : State) (id a n : Nat) (d : Started) (rb : Bool) (rf : BitVec 4), Takes s id 0x20 d → a = d.le 8 8 → n = d.le 0x10 8 →
    s.alm.authRun < max 1 s.alm.authLimit.toNat →
    (s.fw.stage ≠ some { cmd := some id } → s.alarmed = true →
      ∃ s', Sys2Proof.Machine.exec (.fwStage id rb rf) s = .next s' ∧ Finished s' id 0x52 0 0 0) ∧
    (s.fw.stage ≠ some { cmd := some id } → s.alarmed = false → s.fw.idle = false →
      ∃ s', Sys2Proof.Machine.exec (.fwStage id rb rf) s = .next s' ∧ Finished s' id 0x63 0 0 0 ∧
        s'.fw = { s.fw with lastStatus := 0x63 }) ∧
    (∀ m, s.fw.stage = none → s.alarmed = false → s.fw.idle = true → a % 64 = 0 → a + max n 0xC00 ≤ hbmUserEnd →
      s.hbmAsleep a (max n 0xC00) = false → s.bad = [] → (∀ i, (s.stack i).offline = false) → m = s.hbmBytes a 0xC00 →
      (n ≠ leAt m 0x10 8 →
        ∃ s', Sys2Proof.Machine.exec (.fwStage id rb rf) s = .next s' ∧ Finished s' id 0x60 0x10 0 0 ∧
          s'.fw = { s.fw with streams := [], lastStatus := 0x60 }) ∧
      (∀ o, n = leAt m 0x10 8 → manifestBad m = some o →
        ∃ s', Sys2Proof.Machine.exec (.fwStage id rb rf) s = .next s' ∧ Finished s' id 0x60 o 0 0 ∧
          s'.fw = { s.fw with streams := [], lastStatus := 0x60 }) ∧
      (n = leAt m 0x10 8 → manifestBad m = none →
        (byteAt m 0x18 ≠ 0xB0 →
          ∃ s', Sys2Proof.Machine.exec (.fwStage id rb rf) s = .next s' ∧ Finished s' id 0x62 0x18 0 0 ∧
            s'.fw = { s.fw with streams := [], lastStatus := 0x62 }) ∧
        (byteAt m 0x18 = 0xB0 → leAt m 0x1C 4 < s.fw.floor.toNat →
          ∃ s', Sys2Proof.Machine.exec (.fwStage id rb rf) s = .next s' ∧ Finished s' id 0x62 0x1C 0 0 ∧
            s'.fw = { s.fw with streams := [], lastStatus := 0x62 }) ∧
        (byteAt m 0x18 = 0xB0 → s.fw.floor.toNat ≤ leAt m 0x1C 4 →
          ((slice m 0x40 32 ≠ keyId Config.firmwareKey ∨
              Config.falconVerify Config.firmwareKey (m.take 0x700) (slice m 0x700 1280) = false ∨
              s.agrees .signature = false) →
            (s.agrees .signature = true ∨ s.alm.authRun + 1 < max 1 s.alm.authLimit.toNat) →
            ∃ s', Sys2Proof.Machine.exec (.fwStage id rb rf) s = .next s' ∧ Finished s' id 0x61 0 0 0 ∧
              s'.fw = { s.fw with streams := [], lastStatus := 0x61 }) ∧
          (slice m 0x40 32 = keyId Config.firmwareKey →
            Config.falconVerify Config.firmwareKey (m.take 0x700) (slice m 0x700 1280) = true → s.agrees .signature = true →
            ∃ s', Sys2Proof.Machine.exec (.fwStage id rb rf) s = .next s' ∧ s'.cmd id = some d ∧
              s'.fw.stage = some { cmd := some id } ∧ s'.fw.hbmCopy = s.hbmBytes a n ∧
              (s'.fw.slot (!s.fw.activeSlot)).image = s.hbmBytes a n ∧ (s'.fw.slot (!s.fw.activeSlot)).state = 1 ∧
              s'.fw.slot s.fw.activeSlot = s.fw.slot s.fw.activeSlot ∧ s'.fw.activeSlot = s.fw.activeSlot ∧
              Recorded s.fw s'.fw ∧
              Output.flashWrite (slotBase (!s.fw.activeSlot)) (s.hbmBytes a n) ∈ s'.out)))) ∧
    (s.fw.stage = some { cmd := some id } → s.fw.streams ≠ [] →
      ∃ s', Sys2Proof.Machine.exec (.fwStage id rb rf) s = .next s' ∧
        s' = { s with fw := { s.fw with streams := [], accepted := s'.fw.accepted, refused := s'.fw.refused } } ∧
        ∀ i, i < 4 →
          s'.fw.accepted.getLsbD i = (s.fw.accepted.getLsbD i || s.fw.streams.contains i && !rf.getLsbD i) ∧
          s'.fw.refused.getLsbD i = (s.fw.refused.getLsbD i || s.fw.streams.contains i && rf.getLsbD i)) ∧
    (∀ ok, s.fw.stage = some { cmd := some id } → s.fw.streams = [] →
      ok = (rb && partsVerify (s.fw.slot (!s.fw.activeSlot)).image) →
      ∃ s', Sys2Proof.Machine.exec (.fwStage id rb rf) s = .next s' ∧ s'.fw.stage = none ∧
        Finished s' id (if ok then 0 else 0x61) 0 (popCount 4 s.fw.accepted.toNat) s.fw.refused.toNat ∧
        s'.fw.slot (!s.fw.activeSlot) = { s.fw.slot (!s.fw.activeSlot) with state := if ok then 2 else 4 } ∧
        s'.fw.slot s.fw.activeSlot = s.fw.slot s.fw.activeSlot ∧ Recorded s.fw s'.fw)) ∧
  (∀ (s : State) (id : Nat) (d : Started) (flashOk loadOk : Bool) (image : List Byte), Takes s id 0x21 d →
    image = (s.fw.slot (!s.fw.activeSlot)).image →
    (∀ i ∈ [Instr.fwActivate id flashOk loadOk, Instr.fwActivateAtNextStart id],
      i = (if d.param0 % 2 = 1 then Instr.fwActivateAtNextStart id else .fwActivate id flashOk loadOk) →
      (s.alarmed = true → ∃ s', Sys2Proof.Machine.exec i s = .next s' ∧ Finished s' id 0x52 0 0 0) ∧
      (s.alarmed = false → (s.fw.idle = false ∨ ∃ x ∈ s.clauses, s.quiescent x.id = false) →
        ∃ s', Sys2Proof.Machine.exec i s = .next s' ∧ Finished s' id 0x63 0 0 0 ∧ s'.fw = s.fw) ∧
      (s.alarmed = false → s.fw.idle = true → (∀ x ∈ s.clauses, s.quiescent x.id = true) →
        (s.fw.slot (!s.fw.activeSlot)).state ≠ 2 →
        ∃ s', Sys2Proof.Machine.exec i s = .next s' ∧ Finished s' id 0x60 0 0 0 ∧ s'.fw = s.fw)) ∧
    (s.alarmed = false → s.fw.idle = true → (∀ x ∈ s.clauses, s.quiescent x.id = true) →
      (s.fw.slot (!s.fw.activeSlot)).state = 2 →
      (d.param0 % 2 = 0 → (flashOk && partsVerify image) = false →
        ∃ s', Sys2Proof.Machine.exec (.fwActivate id flashOk loadOk) s = .next s' ∧ Finished s' id 0x61 0 0 0 ∧
          s'.fw.activeSlot = s.fw.activeSlot ∧ (s'.fw.slot (!s.fw.activeSlot)).state = 4 ∧ Recorded s.fw s'.fw) ∧
      (d.param0 % 2 = 0 → flashOk = true → partsVerify image = true → loadOk = false →
        ∃ s', Sys2Proof.Machine.exec (.fwActivate id flashOk loadOk) s = .next s' ∧ Finished s' id 0x61 0 0 0 ∧
          s' = { s with started := s'.started, fw := { s.fw with hbmCopy := image, settings := s'.fw.settings } }) ∧
      (d.param0 % 2 = 0 → flashOk = true → partsVerify image = true → loadOk = true →
        ∃ s', Sys2Proof.Machine.exec (.fwActivate id flashOk loadOk) s = .next s' ∧ Finished s' id 0 0 0 0 ∧
          s'.fw.activeSlot = !s.fw.activeSlot ∧ s'.fw.state = 1 ∧ s'.fw.attempts = 0 ∧
          (s'.fw.slot (!s.fw.activeSlot)).state = 3 ∧ s'.fw.parts.steward = imagePart 1 image ∧
          s'.fw.parts.microW = imagePart 2 image ∧
          s'.fw.parts.microE = (if s.halfUp true then imagePart 2 image else s.fw.parts.microE) ∧
          s'.fw.tableW = s.fw.tableW ∧ s'.fw.tableE = s.fw.tableE ∧
          ((s.fw.slot s.fw.activeSlot).state = 3 → (s'.fw.slot s.fw.activeSlot).state = 2) ∧ s'.tiles = s.tiles ∧
          s'.links = s.links ∧ Recorded s.fw s'.fw) ∧
      (d.param0 % 2 = 1 →
        ∃ s', Sys2Proof.Machine.exec (.fwActivateAtNextStart id) s = .next s' ∧ Finished s' id 0 0 0 0 ∧
          s'.fw.pend = true ∧ s'.fw.activeSlot = s.fw.activeSlot ∧ s'.fw.state = s.fw.state ∧ Recorded s.fw s'.fw))) ∧
  (∀ (s : State) (id : Nat) (d : Started), Takes s id 0x22 d →
    ∃ s', Sys2Proof.Machine.exec (.fwConfirm id) s = .next s' ∧ Finished s' id 0 0 0 0 ∧
      (s.fw.state ≠ 1 → s.fw.state ≠ 2 → s'.fw = s.fw) ∧
      (s.fw.state = 1 ∨ s.fw.state = 2 → s'.fw.state = 0 ∧ s'.fw.attempts = 0 ∧
        s'.fw.floor.toNat = max s.fw.floor.toNat (s.fw.slot s.fw.activeSlot).rollback.toNat ∧
        s'.fw.activeSlot = s.fw.activeSlot ∧ Recorded s.fw s'.fw)) ∧
  (∀ (s : State) (n : Nat) (image m : List Byte) (rb : Bool), s.linkTrained n = true → s.chiefRuns = true →
    s.alm.authRun < max 1 s.alm.authLimit.toNat → m = fitTo 0xC00 image →
    (s.alarmed = false → s.fw.acceptChain = false → s.fw.stage ≠ some { cmd := none } →
      ∃ s', Sys2Proof.Machine.exec (.fwForwardReceive n image rb) s = .next s' ∧ s'.out = s.out ++ [Output.fwAnswer n 0x63] ∧
        s'.fw = { s.fw with lastStatus := 0x63 }) ∧
    (s.alarmed = false → s.fw.acceptChain = true → s.fw.idle = true → image.length = leAt image 0x10 8 →
      (∀ r, s.manifestBefore m = some r →
        ∃ s', Sys2Proof.Machine.exec (.fwForwardReceive n image rb) s = .next s' ∧
          s'.out = s.out ++ [Output.fwAnswer n r.1] ∧ s'.fw = { s.fw with lastStatus := r.1 }) ∧
      (s.manifestBefore m = none → Config.falconVerify Config.firmwareKey (m.take 0x700) (slice m 0x700 1280) = true →
        s.agrees .signature = true →
        ∃ s', Sys2Proof.Machine.exec (.fwForwardReceive n image rb) s = .next s' ∧ Output.fwAnswer n 0 ∈ s'.out ∧
          s'.fw.stage = some { cmd := none } ∧ s'.fw.idle = false ∧
          (s'.fw.slot (!s.fw.activeSlot)).image = image ∧ (s'.fw.slot (!s.fw.activeSlot)).state = 1 ∧
          s'.fw.slot s.fw.activeSlot = s.fw.slot s.fw.activeSlot ∧ Recorded s.fw s'.fw)) ∧
    (∀ ok, s.fw.stage = some { cmd := none } → (s.fw.slot (!s.fw.activeSlot)).image = image →
      ok = (rb && partsVerify image) →
      ∃ s', Sys2Proof.Machine.exec (.fwForwardReceive n image rb) s = .next s' ∧ s'.fw.stage = none ∧
        s'.fw.lastStatus = (if ok then 0 else 0x61) ∧
        s'.fw.slot (!s.fw.activeSlot) = { s.fw.slot (!s.fw.activeSlot) with state := if ok then 2 else 4 } ∧
        s'.fw.slot s.fw.activeSlot = s.fw.slot s.fw.activeSlot ∧ Recorded s.fw s'.fw)) ∧
  (∀ (s : State) (i : Nat), i < 4 →
    (i ∈ s.fw.streams → ∃ s', Sys2Proof.Machine.exec (.fwForwardAbandon i) s = .next s' ∧
      s' = { s with fw := { s.fw with streams := s'.fw.streams, refused := s.fw.refused ||| (1 <<< i) } } ∧
      i ∉ s'.fw.streams ∧ ∀ j, j ≠ i → (j ∈ s'.fw.streams ↔ j ∈ s.fw.streams)) ∧
    (i ∉ s.fw.streams → Sys2Proof.Machine.exec (.fwForwardAbandon i) s = .next s))

/-- In recovery, go takes the buffer's bytes where they continue the image and refuses others with FW_HDR; the block that completes
the manifest has it checked; finish puts a whole image whose digests verify in charge in state 1, and leaves the slot invalid
otherwise; the next image starts anew; outside recovery neither does anything. Stated short of the alarm's limit (R476, R484,
R565-R567). -/
def Obligations.FirmwareRecovery : Prop :=
  ∀ (s : State), s.alm.authRun < max 1 s.alm.authLimit.toNat →
    (s.recovering = false → Sys2Proof.Machine.exec .fwRecovGo s = .next s ∧
      ∀ rb, Sys2Proof.Machine.exec (.fwRecovFinish rb) s = .next s) ∧
    (s.recovering = true → s.fw.recBusy = false → s.fw.recCount = 0 →
      ∃ s', Sys2Proof.Machine.exec .fwRecovGo s = .next s' ∧ s'.fw = { s.fw with recDone := true, recStatus := 0, recBusy := false }) ∧
    (s.recovering = true → s.fw.recBusy = false → 0 < s.fw.recCount.toNat → s.fw.recOff.toNat ≠ s.fw.recNext →
      ∃ s', Sys2Proof.Machine.exec .fwRecovGo s = .next s' ∧ s'.fw = { s.fw with recDone := true, recStatus := 0x60, recBusy := false }) ∧
    (∀ n one l, s.recovering = true → s.fw.recBusy = false → n = min s.fw.recCount.toNat 2048 → 0 < n → one = s.fw.recSlot →
      l = s.fw.recImage ++ s.fw.recBuf.read 0 n → s.fw.recOff.toNat = s.fw.recNext → s.fw.recNext + n ≤ 0x8000000 →
      ((s.fw.recNext + n < 0xC00 ∨ 0xC00 ≤ s.fw.recNext ∨
          s.manifestBefore (l.take 0xC00) = none ∧ s.agrees .signature = true ∧
            Config.falconVerify Config.firmwareKey ((l.take 0xC00).take 0x700) (slice (l.take 0xC00) 0x700 1280) = true) →
        ∃ s', Sys2Proof.Machine.exec .fwRecovGo s = .next s' ∧ s'.fw.recStatus = 0 ∧ s'.fw.recDone = true ∧
          s'.fw.recNext = s.fw.recNext + n ∧ s'.fw.recImage = l ∧ s'.fw.recTarget = some one ∧
          (s'.fw.slot one).state = 1 ∧ s'.fw.slot (!one) = s.fw.slot (!one) ∧ s'.fw.activeSlot = s.fw.activeSlot ∧
          s'.out = s.out ++ [Output.flashWrite (slotBase one + s.fw.recNext) (s.fw.recBuf.read 0 n)]) ∧
      (∀ r, s.fw.recNext < 0xC00 → 0xC00 ≤ s.fw.recNext + n → s.manifestBefore (l.take 0xC00) = some r →
        ∃ s', Sys2Proof.Machine.exec .fwRecovGo s = .next s' ∧ s'.fw.recStatus = r.1 ∧ s'.fw.recDone = true ∧
          s'.fw.recNext = 0 ∧ s'.fw.recImage = [] ∧ s'.fw.recTarget = none ∧ s'.fw.activeSlot = s.fw.activeSlot)) ∧
    (∀ rb one, s.recovering = true → one = s.fw.recSlot →
      (s.fw.recNext < 0xC00 →
        ∃ s', Sys2Proof.Machine.exec (.fwRecovFinish rb) s = .next s' ∧ s'.fw.recStatus = 0x60 ∧ s'.fw.slot one = s.fw.slot one) ∧
      (0xC00 ≤ s.fw.recNext → (rb = false ∨ s.fw.recNext ≠ leAt s.fw.recImage 0x10 8 ∨ partsVerify s.fw.recImage = false) →
        ∃ s', Sys2Proof.Machine.exec (.fwRecovFinish rb) s = .next s' ∧ s'.fw.recStatus = 0x61 ∧ s'.fw.recNext = 0 ∧
          (s'.fw.slot one).state = 4 ∧ s'.fw.activeSlot = s.fw.activeSlot) ∧
      (0xC00 ≤ s.fw.recNext → rb = true → s.fw.recNext = leAt s.fw.recImage 0x10 8 → partsVerify s.fw.recImage = true →
        ∃ s', Sys2Proof.Machine.exec (.fwRecovFinish rb) s = .next s' ∧ s'.fw.recStatus = 0 ∧ s'.fw.activeSlot = one ∧
          s'.fw.state = 1 ∧ s'.fw.attempts = 0 ∧ s'.fw.recNext = 0 ∧ s'.fw.recTarget = none ∧
          (s'.fw.slot one).image = s.fw.recImage ∧ (s'.fw.slot one).state = 3 ∧ Recorded s.fw s'.fw))

/-- POWER_STATE enters vigil once it stands alone, with its record written, the keys but the identity erased and HBM kept as
PWR_VIGIL asks; HALF_POWER switches the East half off unless the weave places something there, and back on with its tiles at
their reset values; a heard wake (the 32-bit wake word of this device, or 10 µs of mark), a thermal trip and a failed boot move CORE_EN
and HBM_EN as the manual says (R268, R384, R385, R457, R491-R500, R561, R583). -/
def Obligations.PowerStates : Prop :=
  (∀ (s : State) (id : Nat) (d : Started), Takes s id 0x40 d →
    (d.param0 % 4 = 2 → ∃ s', Sys2Proof.Machine.exec (.powerState id) s = .next s' ∧ Finished s' id 0x72 4 0 0) ∧
    (d.param0 % 4 < 2 → ∃ s', Sys2Proof.Machine.exec (.powerState id) s = .next s' ∧ Finished s' id 0 0 0 0 ∧
      s' = { s with started := s'.started }) ∧
    (d.param0 % 4 = 3 → (∃ x ∈ s.clauses, x.run.isSome = true) →
      ∃ s', Sys2Proof.Machine.exec (.powerState id) s = .next s' ∧ Finished s' id 0x16 0 0 0 ∧ s'.pwr = s.pwr) ∧
    (d.param0 % 4 = 3 → s.runsOut = false → s.started.length ≠ 1 → Sys2Proof.Machine.exec (.powerState id) s = .next s) ∧
    (d.param0 % 4 = 3 → s.runsOut = false → s.started = [d] → (s.queue d.queue).full = false →
      ∃ s', Sys2Proof.Machine.exec (.powerState id) s = .next s' ∧ s'.pwr.vigil = true ∧ s'.pwr.core = .off ∧
        s'.pwr.coreEn = false ∧ s'.pwr.hbmEn = s.pwr.retain ∧ s'.pwr.retained = s.pwr.retain ∧ s'.started = [] ∧
        (∀ k ∈ s'.hbmStacks, k.up = false ∧ k.selfRefresh = s.pwr.retain) ∧ (∀ k, 1 ≤ k → s'.hasKey k = false) ∧
        s'.hasKey 0 = s.hasKey 0 ∧ (s.trans.recording = false → s'.hbm = s.hbm) ∧
        ∃ r, Output.hostWrite ((s.queue d.queue).cq.toNat + 32 * (s.queue d.queue).cqTail) r ∈ s'.out)) ∧
  (∀ (s : State) (id : Nat) (d : Started), Takes s id 0x41 d → s.serialTurn id = true → d.param0 % 2 = 1 →
    (∀ c ∈ s.started, c.id = id → c.units = none) → (∀ l, DrawReq.session id l ∉ s.draws) →
    (bitAt d.param0 8 = false →
      (s.dev.eastAwake = false → ∃ s', Sys2Proof.Machine.exec (.halfPowerOff id) s = .next s' ∧ Finished s' id 0 0 0 0 ∧
        s' = { s with started := s'.started }) ∧
      (s.dev.eastAwake = true → s.weaveInEast = true →
        ∃ s', Sys2Proof.Machine.exec (.halfPowerOff id) s = .next s' ∧ Finished s' id 0x14 0 0 0 ∧
          s' = { s with started := s'.started }) ∧
      (s.dev.eastAwake = true → s.weaveInEast = false →
        ∃ s', Sys2Proof.Machine.exec (.halfPowerOff id) s = .next s' ∧ Finished s' id 0 0 0 0 ∧ s'.dev.eastAwake = false ∧
          s'.tksE.enable = false ∧ s'.hbm = s.hbm ∧ (∀ i, i < 6 → s'.stack i = s.stack i) ∧
          (∀ i, 6 ≤ i → i < s.hbmStacks.length → (s'.stack i).selfRefresh = true ∧ (s'.stack i).up = false) ∧
          s'.hopE.units = [] ∧ (∀ n, 16 ≤ n → n < s.links.length → (s'.link n).state = .off) ∧
          (s.draws = [] → ∀ n, n < 16 → s'.link n = s.link n))) ∧
    (bitAt d.param0 8 = true →
      (s.dev.eastAwake = true → ∃ s', Sys2Proof.Machine.exec (.halfPowerOn id) s = .next s' ∧ Finished s' id 0 0 0 0 ∧
        s' = { s with started := s'.started }) ∧
      (s.dev.eastAwake = false →
        ∃ s', Sys2Proof.Machine.exec (.halfPowerOn id) s = .next s' ∧ Finished s' id 0 0 0 0 ∧ s'.dev.eastAwake = true ∧
          s'.dev.closing = false ∧ s'.hbm = s.hbm ∧ s'.hopE.units = [] ∧ s'.tksE = Tks.reset ∧
          (∀ t, t < s.nTiles / 2 → s'.tile t = s.tile t) ∧
          (∀ t, s.nTiles / 2 ≤ t → (s'.tile t).slots = List.replicate 64 none ∧ (s'.tile t).sram = [] ∧
            (s'.tile t).clause = none) ∧
          ∀ i, 6 ≤ i → i < s.hbmStacks.length → (s'.stack i).selfRefresh = false ∧ (s'.stack i).up = !(s.stack i).offline))) ∧
  (∀ (s : State) (addr : BitVec 7) (n : Nat) (w : WakeSignal) (cool : Bool), s.pwr.vigil = true → s.pwr.stbyReset = false →
    (addr.toNat ≠ 0x68 + s.pwr.plAddr.toNat ∨ s.pwr.wakePlait = false ∨ s.pwr.thermtrip = true ∧ cool = false →
      Sys2Proof.Machine.exec (.plaitWake addr cool) s = .next s) ∧
    (addr.toNat = 0x68 + s.pwr.plAddr.toNat → s.pwr.wakePlait = true → (s.pwr.thermtrip = false ∨ cool = true) →
      Sys2Proof.Machine.exec (.plaitWake addr cool) s = .next { s with pwr := { s.pwr with
        core := .resetHeld, coreEn := true, hbmEn := true, thermtrip := false, pendingWake := s.pwr.pendingWake ||| 1 } }) ∧
    (s.glkWake.enable.getLsbD n = false → Sys2Proof.Machine.exec (.linkWakeDetect n w cool) s = .next s) ∧
    (s.glkWake.enable.getLsbD n = true → (s.pwr.thermtrip = false ∨ cool = true) →
      ((∃ b, w = .pattern b ∧ (s.glkWake.mode = false ∧ b = (0xAA57 : BitVec 16) ++ s.glkWake.device ∨
            s.glkWake.mode = true ∧ 10 ≤ longestMark b)) ∨ (∃ us, w = .mark us ∧ s.glkWake.mode = true ∧ 10 ≤ us)) →
      Sys2Proof.Machine.exec (.linkWakeDetect n w cool) s = .next { s with
        glkWake := { s.glkWake with hit := true, hitLink := n }
        pwr := { s.pwr with
          core := .resetHeld, coreEn := true, hbmEn := true, thermtrip := false, pendingWake := s.pwr.pendingWake ||| 2 } }) ∧
    (((∃ b, w = .pattern b ∧ s.glkWake.mode = false ∧ b ≠ (0xAA57 : BitVec 16) ++ s.glkWake.device) ∨
        (∃ us, w = .mark us ∧ (s.glkWake.mode = false ∨ us < 10))) →
      Sys2Proof.Machine.exec (.linkWakeDetect n w cool) s = .next s)) ∧
  (∀ (s : State), s.pwr.stbyReset = false →
    (∃ s', Sys2Proof.Machine.exec .thermtrip s = .next s' ∧ s'.pwr.thermtrip = true ∧ s'.pwr.core = .off ∧
      s'.pwr.coreEn = false ∧ s'.pwr.hbmEn = false ∧ s'.pwr.bootPulse = false ∧ s'.pwr.vigil = true ∧ s'.dev.ready = false ∧
      s'.started = [] ∧ s'.sec = s.sec) ∧
    (s.up = true → s.dev.ready = false → s.dev.recovery = false → s.fw.state = 1 →
      ∃ s', Sys2Proof.Machine.exec .bootReadyTimeout s = .next s' ∧ s'.pwr.coreEn = false ∧ s'.pwr.core = .off ∧
        s'.pwr.bootPulse = true ∧ s'.fw = s.fw) ∧
    ((s.dev.ready = true ∨ s.fw.state ≠ 1) → Sys2Proof.Machine.exec .bootReadyTimeout s = .next s) ∧
    (s.pwr.bootPulse = true → Sys2Proof.Machine.exec .failedBootRestart s =
      .next { s with pwr := { s.pwr with coreEn := true, bootPulse := false, core := .resetHeld } }) ∧
    (s.pwr.bootPulse = false → Sys2Proof.Machine.exec .failedBootRestart s = .next s))

/-- What each reset leaves: a host warm or fundamental reset keeps HBM, the identity key and the firmware's readiness, ends every
command without a record, and leaves no weave, phrase, session or debug level; a cold reset brings every part of the core to its
reset value, regenerates the identity after a VSTBY power-up where its key has the certificate's public key, boots the slot that the
slot records put in charge, the other one, or enters recovery; RESET_N stops the core; a reset of the VSTBY domain keeps the
alarm's settings and counts, and its release samples the straps and drives CORE_EN and HBM_EN high unless BOOT_MODE selects boot
to vigil (R396, R450, R489, R504-R511, R548, R561, R563-R565, R574). -/
def Obligations.Resets : Prop :=
  (∀ (s : State) (i : Instr) (kind : Nat),
    (i = .fundamentalReset ∧ kind = 3 ∧ s.up = true ∨
      (∃ val flr, i = .hostWarmReset val flr ∧ (flr = true ∨ val.toNat / 2 ^ 16 = 0x4A53 ∧ val.getLsbD 0 = true)) ∧ kind = 4 ∧
        s.hostUp = true) →
    ∃ s', Sys2Proof.Machine.exec i s = .next s' ∧ s'.hbm = s.hbm ∧ s'.bad = s.bad ∧ s'.exact = s.exact ∧ s'.started = [] ∧
      s'.queues = List.replicate 16 Queue.reset ∧ s'.weave = WeaveSt.reset ∧ s'.clauses = [] ∧ s'.replay = none ∧
      s'.pwr.cause = kind ∧ s'.dev.ready = s.dev.ready ∧ s'.dev.irqMask = 0 ∧ s'.sec.debug = 0 ∧ s'.sec.session = false ∧
      (∀ k, 1 ≤ k → s'.hasKey k = false) ∧ s'.hasKey 0 = s.hasKey 0 ∧ s'.alm = s.alm ∧ s'.timer = s.timer ∧
      s'.pwr.railW.uvSeen = false ∧ s'.pwr.railE.uvSeen = false ∧ s'.pwr.wakeSrc = 0 ∧ s'.pwr.tripped = false ∧
      ∀ t, (s'.tile t).slots = List.replicate 64 none ∧ (s'.tile t).clause = none ∧ (s'.tile t).sram = []) ∧
  (∀ (s : State) (val : BitVec 32), (val.toNat / 2 ^ 16 ≠ 0x4A53 ∨ val.getLsbD 0 = false) →
    Sys2Proof.Machine.exec (.hostWarmReset val false) s = .next s) ∧
  (∀ (s : State) (b : BootIn), (s.pwr.core ≠ .resetHeld → Sys2Proof.Machine.exec (.coldReset b) s = .next s) ∧
    (s.pwr.core = .resetHeld → s.pwr.coreEn = true →
      ∃ s', Sys2Proof.Machine.exec (.coldReset b) s = .next s' ∧ s'.pwr.core = .running ∧ s'.started = [] ∧
        s'.queues = List.replicate 16 Queue.reset ∧ s'.weave = WeaveSt.reset ∧ s'.clauses = [] ∧ s'.timer = 0 ∧
        s'.hbm = (if s.pwr.retained then s.hbm else []) ∧ s'.tiles = List.replicate s.nTiles Tile.reset ∧
        s'.sec.debug = 0 ∧ s'.sec.session = false ∧
        s'.pwr.cause = (if s.pwr.stbyLost then 1 else if s.pwr.pendingWake = 0 then 2 else if s.pwr.retained then 7 else 6) ∧
        (s.pwr.stbyLost = false → s'.hasKey 0 = s.hasKey 0) ∧
        (s.pwr.stbyLost = true →
          s'.hasKey 0 = (s.hasKey 0 || (b.identityOk && identityMatches && !s.sec.idErased))) ∧
        s'.dev.pciGen ≤ 7 ∧ (6 ≤ s'.dev.pciGen → s'.dev.pciFlit = true) ∧ (s'.dev.recovery = true → s'.dev.pciGen ≤ 5) ∧
        (b.recoveryN = false → s'.dev.recovery = true ∧ s'.dev.ready = false) ∧
        ∀ f a, f = s.fw.reboot.starts → a = f.activeSlot →
          (∀ r, s.fw.slot0.state ≠ 1 → s.fw.slot1.state ≠ 1 → s.fw.latest = some r → r.pend = false →
            a = r.activeSlot ∧ f.state = r.state) ∧
          (b.recoveryN = true → ¬(f.state = 1 ∧ f.attempts = 3) →
            (f.bootable b.slotOk a = true → s'.dev.recovery = false ∧ s'.dev.ready = b.starts ∧ s'.fw.activeSlot = a ∧
              s'.fw.state = f.state ∧ s'.fw.attempts = f.attempts + if f.state = 1 then 1 else 0) ∧
            (f.bootable b.slotOk a = false → f.bootable b.slotOk (!a) = true →
              s'.dev.ready = b.starts ∧ s'.fw.activeSlot = (!a) ∧ s'.fw.state = 2 ∧ (s'.fw.slot a).state = 4) ∧
            (f.bootable b.slotOk a = false → f.bootable b.slotOk (!a) = false →
              s'.dev.recovery = true ∧ s'.dev.ready = false)) ∧
          (b.recoveryN = true → f.state = 1 → f.attempts = 3 → f.bootable b.slotOk (!a) = true →
            s'.dev.ready = b.starts ∧ s'.fw.activeSlot = (!a) ∧ s'.fw.state = 2 ∧ (s'.fw.slot a).state = 5))) ∧
  (∀ (s : State),
    (s.up = true → ∃ s', Sys2Proof.Machine.exec .resetNAssert s = .next s' ∧ s'.pwr = { s.pwr with core := .resetHeld } ∧
      s'.dev.ready = false ∧ s'.started = [] ∧ s'.hbm = s.hbm) ∧
    (∃ s', Sys2Proof.Machine.exec .stbyResetAssert s = .next s' ∧ s'.pwr.stbyReset = true ∧ s'.pwr.core = .off ∧
      s'.pwr.coreEn = false ∧ s'.pwr.vigil = false ∧ s'.sec.store = [] ∧ s'.alm.policy = s.alm.policy ∧
      s'.alm.counts = s.alm.counts ∧ s'.alm.latched = 0 ∧ s'.fw = s.fw ∧ s'.glkWake = GlkWake.reset) ∧
    ∀ (a : BitVec 3) (m : BitVec 2),
      (s.pwr.stbyReset = false → Sys2Proof.Machine.exec (.stbyResetRelease a m) s = .next s) ∧
      (s.pwr.stbyReset = true →
        ∃ s', Sys2Proof.Machine.exec (.stbyResetRelease a m) s = .next s' ∧ s' = { s with pwr := s'.pwr } ∧
          s'.pwr.stbyReset = false ∧ s'.pwr.plAddr = a ∧ s'.pwr.bootMode = m ∧ s'.pwr.bootCount = s.pwr.bootCount + 1 ∧
          s'.pwr.coreEn = decide (m ≠ 1) ∧ s'.pwr.hbmEn = decide (m ≠ 1) ∧ s'.pwr.vigil = decide (m = 1) ∧
          s'.pwr.core = if m = 1 then .off else .resetHeld))

/-- PWR_VSET sends each powered half's setpoint, clamped, to its regulator, a throttled half staying below it; the throttle moves a
hot half's setpoint down by a step and a cool one's up towards PWR_VSET, and a setpoint that lies too far from what a tile was
calibrated at triggers it; a temperature sample is kept, makes a valid array stale where it lies beyond the threshold, restarts a
calibration under way where Tj has moved by more than half of it, the fourth restart failing it, and is judged by the alarm; a
telemetry read is kept and judged the same way, and its absence marks every tile of the half. A retention fault on VSTBY is the
read's operand (log entry 102, the model's choice) (R225-R228, R230, R476, R502-R504). -/
def Obligations.RailsAndSensors : Prop :=
  (∀ (s : State) (val : BitVec 32), s.hostUp = true →
    ∃ s', Sys2Proof.Machine.exec (.pwrVsetWrite val) s = .next s' ∧ s'.pwr.vsetW = val.extractLsb' 16 16 ∧
      s'.pwr.vsetE = val.extractLsb' 0 16 ∧
      (∀ e new, new = max 600 (min 850 (if e then val.extractLsb' 0 16 else val.extractLsb' 16 16).toNat) →
        (s.halfUp e = true →
          (s'.rail e).vcmd = if (s.rail e).vcmd < s.vset e then min (s.rail e).vcmd new else new) ∧
        (s.halfUp e = false → s'.rail e = s.rail e)) ∧
      s'.hbm = s.hbm ∧ ∀ t p, s'.phraseAt t p = s.phraseAt t p) ∧
  (∀ (s : State) (h : Half) (e : Bool) (tj on off : Int) (v step v' : Nat), e = isEast h → s.stewardRuns e = true →
    tj = s.hottest e → on = 4 * (s.pwr.tOn.toNat : Int) → off = 4 * min (s.pwr.tOff.toNat : Int) ((s.pwr.tOn.toNat : Int) - 1) →
    v = (s.rail e).vcmd → step = max 1 s.pwr.step.toNat →
    v' = (if on ≤ tj then max (min 600 v) (v - step) else if tj < off then min (s.vset e) (v + step) else v) →
    (v' = v → Sys2Proof.Machine.exec (.throttleStep h) s = .next s) ∧
    (v' ≠ v →
      ∃ s', Sys2Proof.Machine.exec (.throttleStep h) s = .next s' ∧ (s'.rail e).vcmd = v' ∧ s'.rail (!e) = s.rail (!e) ∧
        s'.out = s.out ++ [Output.pmbus (b2n e) v'] ∧ s'.hbm = s.hbm ∧ (∀ t p, s'.phraseAt t p = s.phraseAt t p) ∧
        ∀ t, t < s.nTiles → s.nTiles ≤ s.tiles.length → s.tileEast t = e → (s.tile t).cal.known = true →
          calThreshold (s.tile t).cal.dv < gap v' (s.tile t).cal.ref.vc →
          (s'.tile t).cal.trigger = 2 ∧ (s'.tile t).cal.rail = some (v', s.timer + 500000))) ∧
  (∀ (s : State) (t : Nat) (tj : Int) (k : Calib) (g lim : Nat), s.tileUp t = true → t < s.tiles.length → k = (s.tile t).cal →
    g = gap tj k.ref.tj → lim = calThreshold k.dt →
    (∃ s', Sys2Proof.Machine.exec (.tjSample t tj) s = .next s' ∧ (s'.tile t).cal.now = { k.now with tj := tj }) ∧
    ((tj < 4 * s.alm.tLow.toInt ∨ 4 * (s.alm.tHigh.toNat : Int) < tj) →
      ∃ s', Sys2Proof.Machine.exec (.tjSample t tj) s = .next s' ∧ s'.alm.present.getLsbD 1 = true ∧ .tile t ∈ s'.alm.hot) ∧
    (4 * s.alm.tLow.toInt ≤ tj → tj ≤ 4 * (s.alm.tHigh.toNat : Int) → (∀ y ∈ s.alm.hot, y = .tile t) →
      ∃ s', Sys2Proof.Machine.exec (.tjSample t tj) s = .next s' ∧ s'.alm.latched = s.alm.latched ∧
        s'.alm.present.getLsbD 1 = false ∧ (s'.tile t).slots = (s.tile t).slots ∧ s'.hbm = s.hbm ∧
        (∀ u, u ≠ t → s'.tile u = s.tile u) ∧
        (k.step = 0 → (k.known = false ∨ g ≤ lim) → (s'.tile t).cal = { k with now := { k.now with tj := tj } }) ∧
        (k.step = 0 → k.known = true → lim < g →
          (s'.tile t).cal = { k with
            now := { k.now with tj := tj }, trigger := 1, cal := if k.cal = 0 then 2 else if k.cal = 3 then 1 else k.cal }) ∧
        (k.step ≠ 0 → lim < 2 * g → k.restarts ≠ 3 →
          (s'.tile t).cal.step = 1 ∧ (s'.tile t).cal.stepAt = s.timer ∧ (s'.tile t).cal.restarts = k.restarts + 1 ∧
          (s'.tile t).cal.ref = { k.now with tj := tj }) ∧
        (k.step ≠ 0 → lim < 2 * g → k.restarts = 3 → (s'.tile t).cal.failReason = 8 ∧
          (k.fails = 0 → (s'.tile t).cal.cal = 1 ∧ (s'.tile t).cal.step = 1 ∧ (s'.tile t).cal.trigger = 6) ∧
          (k.fails ≠ 0 → (s'.tile t).cal.cal = 3 ∧ (s'.tile t).cal.step = 0 ∧ s'.dev.irqStat.getLsbD 5 = true)))) ∧
  (∀ (s : State) (h : Half) (e : Bool), e = isEast h → s.stewardRuns e = true → s.nTiles ≤ s.tiles.length →
    (∃ s', Sys2Proof.Machine.exec (.telemetryRead h none) s = .next s' ∧ s'.rail e = { s.rail e with noresp := true } ∧
      s'.rail (!e) = s.rail (!e) ∧ s'.sec = s.sec ∧
      ∀ t, t < s.nTiles →
        s'.tile t = if s.tileEast t = e then { s.tile t with cal := { (s.tile t).cal with vsrc := true } } else s.tile t) ∧
    ∀ r : Telemetry, ∃ s', Sys2Proof.Machine.exec (.telemetryRead h (some r)) s = .next s' ∧
      s'.rail e = { s.rail e with vout := r.vout, lastOk := s.timer, uvSeen := (s.rail e).uvSeen || r.uv, noresp := false } ∧
      s'.rail (!e) = s.rail (!e) ∧ s'.pwr.vana = r.vana ∧
      s'.sec = { s.sec with store := s.sec.store.map fun x => { x with torn := x.torn || r.torn.contains x.k } } ∧
      ∀ t k, t < s.nTiles → k = (s.tile t).cal →
        (s.tileEast t ≠ e → s'.tile t = s.tile t) ∧
        (s.tileEast t = e → (s'.tile t).cal.now = { k.now with vc := r.vout, va := r.vana } ∧ (s'.tile t).cal.vsrc = false ∧
          (s'.tile t).slots = (s.tile t).slots ∧
          (k.step = 0 → k.known = true →
            (gap r.vout k.ref.vc ≤ calThreshold k.dv → gap r.vana k.ref.va ≤ 20 →
              (s'.tile t).cal.trigger = k.trigger ∧ (s'.tile t).cal.cal = k.cal) ∧
            (calThreshold k.dv < gap r.vout k.ref.vc → gap r.vana k.ref.va ≤ 20 → (s'.tile t).cal.trigger = 2) ∧
            (20 < gap r.vana k.ref.va → (s'.tile t).cal.trigger = 3) ∧
            (k.cal = 0 → calThreshold k.dv < gap r.vout k.ref.vc ∨ 20 < gap r.vana k.ref.va →
              (s'.tile t).cal.cal = 2))))

/-- A calibration that is due, its rail settled, starts at step 1 with the values of now as its reference; it passes with new trims,
bisected from the offset in effect, or fails, the first failure being tried again and the next leaving the array failed with its
interrupt; at its end a waiting bank swap is made; a spot check starts on an array that has been idle for spot_idle and records its
deviation, which makes the array stale beyond 0.025; CAL_CMD asks for either (R222-R224, R227-R232, R234, R235). -/
def Obligations.Calibrations : Prop :=
  ∀ (s : State) (t : Nat) (k : Calib), s.tileUp t = true → t < s.tiles.length → k = (s.tile t).cal →
    ((k.cal = 1 ∧ k.step = 0 ∨ k.cal = 2 ∨ k.startCmd = true) → (s.tile t).os.run = none →
      s.stewardRuns (s.tileEast t) = true →
      ((∀ w, k.rail = some w → w.2 ≤ s.timer) →
        ∃ s', Sys2Proof.Machine.exec (.calibrationStart t) s = .next s' ∧
          (s'.tile t).cal = { k with
            cal := 1, step := 1, stepAt := s.timer, trigger := if k.startCmd then 5 else k.trigger, restarts := 0
            known := true, ref := k.now, spot := false, startCmd := false, rail := none } ∧
          (s'.tile t).os = (s.tile t).os ∧ ∀ u, u ≠ t → s'.tile u = s.tile u) ∧
      (∀ w, k.rail = some w → s.timer < w.2 → Sys2Proof.Machine.exec (.calibrationStart t) s = .next s)) ∧
    (k.cal = 0 → k.startCmd = false → Sys2Proof.Machine.exec (.calibrationStart t) s = .next s) ∧
    (∀ m, k.step = 0 → Sys2Proof.Machine.exec (.calibrationComplete t m) s = .next s) ∧
    (∀ m r, k.step ≠ 0 → r = measReason (s.offsStart t) m →
      ∃ s', Sys2Proof.Machine.exec (.calibrationComplete t m) s = .next s' ∧ s'.hbm = s.hbm ∧
        ((s.tile t).os.swapPending = false → (s'.tile t).os = (s.tile t).os) ∧
        (r = 0 → (s'.tile t).cal.cal = 0 ∧ (s'.tile t).cal.step = 0 ∧ (s'.tile t).cal.fails = 0 ∧
          (s'.tile t).cal.seq = k.seq + 1 ∧ s'.dev = s.dev ∧
          (s'.tile t).cal.trim = some (tab 512 fun i => unitTrim (s.offsStart t i) (measUnit m i)) ∧
          ((s.tile t).os.swapPending = true → (s.tile t).os.run = none →
            (s'.tile t).os = { (s.tile t).os with bank := !(s.tile t).os.bank, swapPending := false })) ∧
        (r ≠ 0 → k.fails = 0 → (s'.tile t).cal.cal = 1 ∧ (s'.tile t).cal.step = 1 ∧
          (s'.tile t).cal.trigger = 6 ∧ (s'.tile t).cal.failReason = r ∧ (s'.tile t).cal.trim = k.trim) ∧
        (r ≠ 0 → k.fails ≠ 0 → (s'.tile t).cal.cal = 3 ∧ (s'.tile t).cal.step = 0 ∧ (s'.tile t).cal.trim = k.trim ∧
          s'.dev.irqStat.getLsbD 5 = true)) ∧
    ((s.tile t).os.run = none → (k.cal = 0 ∨ k.cal = 3) → k.spot = false →
      (k.spotCmd = true ∨ k.spotPeriod ≠ 0 ∧ ∀ x, k.lastSpot = some x → x + 1000000 * k.spotPeriod.toNat ≤ s.timer) →
      (k.idleAt + 1000 * max 1 k.spotIdle.toNat ≤ s.timer →
        ∃ s', Sys2Proof.Machine.exec (.spotCheckStart t) s = .next s' ∧
          (s'.tile t).cal = { k with spot := true, spotCmd := false, lastSpot := some s.timer }) ∧
      (s.timer < k.idleAt + 1000 * max 1 k.spotIdle.toNat → Sys2Proof.Machine.exec (.spotCheckStart t) s = .next s)) ∧
    ((s.tile t).os.run ≠ none → Sys2Proof.Machine.exec (.spotCheckStart t) s = .next s) ∧
    (∀ dev, k.spot = true → dev < 65536 →
      ∃ s', Sys2Proof.Machine.exec (.spotCheckComplete t dev) s = .next s' ∧ (s'.tile t).cal.spot = false ∧
        (s'.tile t).cal.driftLast.toNat = dev ∧
        (s'.tile t).cal.driftWorst.toNat = max k.driftWorst.toNat dev ∧
        (dev < 1639 → (s'.tile t).cal.cal = k.cal) ∧
        (1639 ≤ dev → (s'.tile t).cal.trigger = 4 ∧ (k.cal = 0 → (s'.tile t).cal.cal = 2) ∧
          (k.cal = 3 → (s'.tile t).cal.cal = 1))) ∧
    (∃ s', Sys2Proof.Machine.exec (.calCmdStart t) s = .next s' ∧
      ((k.cal = 0 ∨ k.cal = 2) → (s'.tile t).cal = { k with startCmd := true }) ∧
      (k.cal = 1 → s' = s) ∧
      (k.cal = 3 → (s'.tile t).cal = { k with cal := 1, trigger := 5 })) ∧
    ∃ s', Sys2Proof.Machine.exec (.calCmdSpot t) s = .next s' ∧ (s'.tile t).cal = { k with spotCmd := true }

/-! ## Tallies, entropy, token samplers, links and management (07, 08, 11, 12, 15) -/

/-- TLY_CTL and TLY_TCTL clear counters and the ticks not yet assigned, and nothing else; TALLY_CFG takes new settings, a counter whose
event stays keeping its count, or names its first offending field, and is refused while the weave is locked; a snapshot falls due
once for each multiple of dump_period that TLY_TIMER passes, and its dump is written and numbered where the ring has room and the
dump before is written, else dropped and counted; there is none without a region (R535-R537, R539, R543, R545, R546). -/
def Obligations.Tallies : Prop :=
  (∀ (s : State), s.hostUp = true →
    (∃ s', Sys2Proof.Machine.exec .tlyClear s = .next s' ∧ s' = { s with tiles := s'.tiles, tly := { s.tly with rim := s'.tly.rim } } ∧
      (∀ t, t < s.tiles.length → s'.tile t = { s.tile t with cnt := List.replicate 96 0, pendTicks := 0 }) ∧ ∀ x ∈ s'.tly.rim, x = (0, 0)) ∧
    ∀ t, s.tileUp t = true → t < s.tiles.length →
      ∃ s', Sys2Proof.Machine.exec (.tileTallyClear t) s = .next s' ∧ s' = { s with tiles := s'.tiles } ∧
        s'.tile t = { s.tile t with cnt := List.replicate 96 0, pendTicks := 0 } ∧ ∀ u, u ≠ t → s'.tile u = s.tile u) ∧
  (∀ (s : State) (id a : Nat) (d : Started) (b : List Byte), Takes s id 0x50 d → a = d.le 8 8 →
    (s.weave.locked = true → ∃ s', Sys2Proof.Machine.exec (.tallyCfg id) s = .next s' ∧ Finished s' id 0x51 0 0 0 ∧ s'.tly = s.tly) ∧
    (s.weave.locked = false → a + 32 ≤ hbmUserEnd → s.hbmAsleep a 32 = false → s.struckLines a 32 = [] → b = s.hbmBytes a 32 →
      (∀ o, s.tallyBad b = some o →
        ∃ s', Sys2Proof.Machine.exec (.tallyCfg id) s = .next s' ∧ Finished s' id 0x72 o 0 0 ∧ s'.tly = s.tly ∧
          s'.tiles = s.tiles) ∧
      (s.tallyBad b = none →
        ∃ s', Sys2Proof.Machine.exec (.tallyCfg id) s = .next s' ∧ Finished s' id 0 0 0 0 ∧ s'.tly.cfg = parseTally b ∧
          s'.tly.seq = 0 ∧ s'.tly.since = s.timer ∧ s'.tly.taken = 0 ∧
          ∀ t k, t < s.tiles.length → k < (s.tile t).cnt.length → (s'.tile t).cnt.getD k 0 =
            if s.tly.cfg.dedicated = (parseTally b).dedicated ∧ ((parseTally b).dedicated = true ∨
              s.tly.cfg.events.getD k 0 = (parseTally b).events.getD k 0) then (s.tile t).cnt.getD k 0 else 0))) ∧
  (∀ (s : State) (i : Instr) (due : Nat), s.hostUp = true →
    due = (s.timer - s.tly.since) / (1000 * s.tly.cfg.period) →
    (i = .tallyDump ∧ (s.tly.cfg.period = 0 ∨ due ≤ s.tly.taken) → Sys2Proof.Machine.exec i s = .next s) ∧
    ∀ k, (i = .tallyDump ∧ s.tly.cfg.period ≠ 0 ∧ s.tly.taken < due ∧ k = due ∨ i = .tlyDumpNow ∧ k = s.tly.taken) →
      (s.tallyRing = none → Sys2Proof.Machine.exec i s = .next { s with tly := { s.tly with taken := k } }) ∧
      ∀ r cap w pad n, s.tallyRing = some r → cap = r.len - 0x40 → w = s.tly.ringWrite → n = s.dumpBytes →
        pad = (if cap < w % cap + n then cap - w % cap else 0) →
        ∃ s', Sys2Proof.Machine.exec i s = .next s' ∧
          (s.tly.dumping = false → w + pad + n ≤ leNat (s.hbmBytes (r.base + 0x10) 8) + cap → n ≤ cap →
            s'.tly = { s.tly with
              taken := k, dumping := true, ringWrite := w + pad + n, seq := s.tly.seq + 1, dumps := satAdd 32 s.tly.dumps 1 }) ∧
          ((s.tly.dumping = true ∨ leNat (s.hbmBytes (r.base + 0x10) 8) + cap < w + pad + n ∨ cap < n) →
            s'.tly = { s.tly with
              taken := k, dropped := satAdd 32 s.tly.dropped 1, ringDropped := s.tly.ringDropped + 1 }) ∧
          ∀ t p, s'.phraseAt t p = s.phraseAt t p)

/-- A healthy cell's block that passes the continuous tests waits for the next, which puts it into the hopper, and serves who waits;
from its end the cell uses the cutoffs last set; a cell that fails a test is isolated with what it had pending, a retest or a
start-up test makes it healthy or isolates it again, and fewer than eight healthy cells raise ENT_FAIL; a capture needs full debug,
and its cell is tested again. The tests fail a run of as many equal bits as the RCT cutoff, and a window whose first bit occurs as
often as the APT cutoff (R258, R261-R269, R271, R277, R559). -/
def Obligations.NoiseCells : Prop :=
  ∀ (s : State) (c : Nat) (e : Bool), s.cellUp c = true → e = decide (16 ≤ c) → c % 16 < (s.hop e).cells.length →
    (∀ raw, (s.cell c).st ≠ .healthy → Sys2Proof.Machine.exec (.entropyBlockComplete c raw) s = .next s) ∧
    (∀ raw r, (s.cell c).st = .healthy →
      r = healthScan (s.cell c).apt (s.cell c).rct (rawBits (fitTo 256 raw)) (s.cell c).health →
      (∀ g, r = .inl g →
        ∃ s' : State, Sys2Proof.Machine.exec (.entropyBlockComplete c raw) s = .next s'.serveDraws ∧
          (s'.cell c).pend = some (shake256 32 (BitVec.ofNat 8 c :: fitTo 256 raw)) ∧ (s'.cell c).st = .healthy ∧
          (s'.cell c).health = g ∧ (s'.cell c).apt = (s.hop e).aptCutoff ∧ (s'.cell c).rct = (s.hop e).rctCutoff ∧
          s'.draws = s.draws ∧ s'.hop (!e) = s.hop (!e) ∧
          (s'.hop e).units = match (s.cell c).pend with
            | some u => if (s.hop e).entFail = true ∨ 2048 ≤ (s.hop e).units.length then (s.hop e).units else (s.hop e).units ++ [u]
            | none => (s.hop e).units) ∧
      (∀ f, r = .inr f →
        ∃ s', Sys2Proof.Machine.exec (.entropyBlockComplete c raw) s = .next s' ∧
          ((s'.cell c).st = .isolated ∨ (s'.cell c).st = .locked) ∧ (s'.cell c).pend = none ∧
          (f.1 = true → (s'.hop e).rct = satAdd 16 (s.hop e).rct 1) ∧ (f.2 = true → (s'.hop e).apt = satAdd 16 (s.hop e).apt 1) ∧
          (s'.hop e).units = (s.hop e).units)) ∧
    (∀ (apt rct : Nat) (b : Bool) (l r : List Bool) (h : HealthAt), 0 < rct →
      (healthScan apt rct (l ++ List.replicate rct b ++ r) h).isRight = true) ∧
    (∀ (apt rct : Nat) (b : Bool) (l r : List Bool), l.length < 1024 → apt ≤ (b :: l).count b →
      (healthScan apt rct (b :: l ++ r) HealthAt.start).isRight = true) ∧
    (∀ test, (s.cell c).st = .healthy →
      ∃ s', Sys2Proof.Machine.exec (.healthTestFail c test) s = .next s' ∧
        ((s'.cell c).st = .isolated ∨ (s'.cell c).st = .locked) ∧ (s'.cell c).pend = none ∧
        (test = .rct → (s'.hop e).rct = satAdd 16 (s.hop e).rct 1) ∧ (test = .apt → (s'.hop e).apt = satAdd 16 (s.hop e).apt 1) ∧
        (s'.hop e).units = (s.hop e).units ∧ (∀ k, k < 16 → k ≠ c % 16 → (s'.hop e).cells[k]? = (s.hop e).cells[k]?) ∧
        ((s.hop e).entFail = false → (∀ k ∈ (s'.hop e).cells, k.st ≠ .startup) → (s'.hop e).healthy < 8 →
          (s'.hop e).entFail = true ∧ s'.dev.irqStat.getLsbD 3 = true)) ∧
    ((s.cell c).st = .isolated →
      ∃ s', Sys2Proof.Machine.exec (.cellRetest c) s = .next s' ∧ (s'.cell c).st = .retest ∧ (s'.hop e).units = (s.hop e).units) ∧
    (∀ bits r, (s.cell c).st = .startup ∨ (s.cell c).st = .retest →
      r = healthScan (s.hop e).aptCutoff (s.hop e).rctCutoff (rawBits (fitTo 128 bits)) HealthAt.start →
      (∀ g, r = .inl g →
        ∃ s' : State, Sys2Proof.Machine.exec (.startupTestComplete c bits) s = .next s'.serveDraws ∧ (s'.cell c).st = .healthy ∧
          (s'.cell c).pend = none ∧ (s'.cell c).health = g ∧ (s'.hop e).units = (s.hop e).units) ∧
      (∀ f, r = .inr f →
        ∃ s', Sys2Proof.Machine.exec (.startupTestComplete c bits) s = .next s' ∧
          ((s'.cell c).st = .isolated ∨ (s'.cell c).st = .locked) ∧
          (s'.hop e).startupErr = satAdd 16 (s.hop e).startupErr 1)) ∧
    (∀ h, isEast h = e →
      (∃ s', Sys2Proof.Machine.exec (.hopCmdRetest h) s = .next s' ∧
        (s'.cell c).st = if (s.cell c).st = .locked then .retest else (s.cell c).st) ∧
      (s.sec.debug ≠ 2 → Sys2Proof.Machine.exec (.hopCmdCapture h) s = .next s) ∧
      (s.sec.debug = 2 → (s.hop e).capturing = none → (s.hop e).capCell.toNat = c % 16 →
        ∃ s', Sys2Proof.Machine.exec (.hopCmdCapture h) s = .next s' ∧ (s'.cell c).st = .capture ∧
          (s'.hop e).capturing = some (c % 16, 64 * (s.hop e).capAddr.toNat)) ∧
      (∀ bits a, (s.hop e).capturing = some (c % 16, a) → a + 131072 ≤ hbmUserEnd → s.hbmAsleep a 131072 = false → s.bad = [] →
        (∀ i, (s.stack i).offline = false) →
        ∃ s', Sys2Proof.Machine.exec (.rawCaptureComplete h bits) s = .next s' ∧ (s'.hop e).capturing = none ∧
          (s'.cell c).st = .retest ∧
          ∀ b, s'.hbmByte b = if a ≤ b ∧ b < a + 131072 then bits.getD (b - a) 0 else s.hbmByte b))

/-- ENTROPY_READ of no byte completes at once; with no hopper serving it completes with EMPTY or NO_DATA; else it takes its units
from the fuller hopper, West on a tie, never below the reserve, and writes exactly its bytes, but waits behind an internal request
and an earlier read. The last result is stated for one unit into host memory outside a session. An internal request that waits is
served first when units come; when the last hopper stops serving, requests and reads that wait get NO_DATA (R271-R274). -/
def Obligations.EntropyReads : Prop :=
  (∀ (s : State), s.draws = [] → s.serveDraws = s) ∧
  (∀ (s : State), s.draws = [.challenge] → s.hostUp = true →
    (s.draw 32 = .wait → s.serveDraws = s) ∧
    (∀ l t, s.draw 32 = .ok l t →
      s.serveDraws = { t with sec := { s.sec with nonce := l, nonceValid := true }, draws := [] }) ∧
    (s.serves false = false → s.serves true = false →
      s.serveDraws = { s with sec := { s.sec with nonceValid := false, lastResult := 7 }, draws := [] } ∧
      ∀ id d, s.cmd id = some d → d.units.isSome = true → d.fin = none → Finished s.entropyLost id 2 0 0 0)) ∧
  ∀ (s : State) (id n : Nat) (d : Started), Takes s id 0x60 d → n = d.param0 % 2 ^ 16 →
    (∀ f, n = 0 → ∃ s', Sys2Proof.Machine.exec (.entropyRead id f) s = .next s' ∧ Finished s' id 0 0 0 0 ∧
      s' = { s with started := s'.started }) ∧
    (∀ f, 0 < n → bitAt d.param0 16 = true → s.serves false = false → s.serves true = false →
      ∃ s', Sys2Proof.Machine.exec (.entropyRead id f) s = .next s' ∧ s' = { s with started := s'.started } ∧
        Finished s' id (if (s.halfUp false = true ∧ s.hopW.ready = false ∧ s.hopW.entFail = false) ∨
          (s.halfUp true = true ∧ s.hopE.ready = false ∧ s.hopE.entFail = false) then 1 else 2) 0 0 0) ∧
    (∀ f, 0 < n → bitAt d.param0 16 = true → s.serves false = true → s.readAhead id = false → d.units = none →
      s.hopW.units.length + s.hopE.units.length ≤ min 1024 s.hopW.reserve.toNat →
      ∃ s', Sys2Proof.Machine.exec (.entropyRead id f) s = .next s' ∧ s'.hopW = s.hopW ∧ s'.hopE = s.hopE ∧ s'.out = s.out ∧
        ∃ c, s'.cmd id = some c ∧ c.fin = none) ∧
    (∀ f, 0 < n → bitAt d.param0 16 = true → (s.serves false = true ∨ s.serves true = true) → s.readAhead id = true →
      ∃ s', Sys2Proof.Machine.exec (.entropyRead id f) s = .next s' ∧ s' = { s with started := s'.started } ∧
        s'.cmd id = some { d with units := some (d.units.getD []) }) ∧
    (∀ u r, 0 < n → n ≤ 32 → bitAt d.param0 16 = true → s.serves false = true → s.readAhead id = false → d.units = none →
      d.session = none → s.hopW.units = u :: r → (s.serves true = true → s.hopE.units.length ≤ s.hopW.units.length) →
      min 1024 s.hopW.reserve.toNat < s.hopW.units.length + s.hopE.units.length → u.length = 32 →
      ∃ s', Sys2Proof.Machine.exec (.entropyRead id none) s = .next s' ∧ Finished s' id 0 n 0 0 ∧ s'.hopW.units = r ∧
        s'.hopW.deliv = s.hopW.deliv + 1 ∧ s'.hopE = s.hopE ∧ s'.out = s.out ++ [Output.hostWrite (d.le 8 8) (u.take n)])

/-- A sampler whose settings pass is enabled with its head at the tail read, another sets cfg_err; a poll takes the tail, or sets
overrun and disables the sampler where the tail lies more than the ring ahead; a request moves head on by one, with its status,
and writes its result and the head and nothing else, and one under a key slot whose entry fails its tag completes with TKS_ARG and
erases it; a sampler is disabled once its request in progress has completed; at temperature 0 the token is the first of the largest
logits (R296-R306, R456). -/
def Obligations.TokenSamplers : Prop :=
  (∀ (s : State) (h : Half) (e : Bool), e = isEast h → s.halfUp e = true →
    (∀ (val : BitVec 32) (k : Tks), val.getLsbD 31 = true → (s.tks e).enable = false →
      k = { s.tks e with clause := val.extractLsb' 16 6, sizeLog2 := val.extractLsb' 0 4 } →
      (s.tksOk k = false →
        ∃ s', Sys2Proof.Machine.exec (.tksEnable h val) s = .next s' ∧ s'.tks e = { k with cfgErr := true } ∧ s'.hbm = s.hbm) ∧
      (s.tksOk k = true →
        ∃ s' v, Sys2Proof.Machine.exec (.tksEnable h val) s = .next s' ∧ v = BitVec.ofNat 32 (leNat (s.hbmBytes k.tail.toNat 4)) ∧
          s'.tks e = { k with
            enable := true, busy := false, head := v, tailCount := v, lClause := k.clause.toNat, lSize := k.sizeLog2.toNat,
            lRing := k.ring.toNat, lTail := k.tail.toNat } ∧ s'.hbm = s.hbm)) ∧
    (∀ val : BitVec 32, val.getLsbD 31 = false →
      ∃ s', Sys2Proof.Machine.exec (.tksDisable h val) s = .next s' ∧ (s'.tks e).enable = false ∧ (s'.tks e).busy = false ∧
        s'.tks (!e) = s.tks (!e) ∧ (s.tksBusy e = false → s'.hbm = s.hbm ∧ (s'.tks e).head = (s.tks e).head) ∧
        (s.tksBusy e = true → (s'.tks e).head = (s.tks e).head + 1)) ∧
    (∀ i ∈ [Instr.tksKick h, Instr.tksTailPoll h],
      ((s.tks e).enable = false → Sys2Proof.Machine.exec i s = .next s) ∧
      (∀ v : BitVec 32, (s.tks e).enable = true → (s.tks e).tailCount = (s.tks e).head → s.hbmAsleep (s.tks e).lTail 4 = false →
        v = BitVec.ofNat 32 (leNat (s.hbmBytes (s.tks e).lTail 4)) →
        ∃ s', Sys2Proof.Machine.exec i s = .next s' ∧ s'.hbm = s.hbm ∧
          s'.tks e = if 2 ^ (s.tks e).lSize < (v - (s.tks e).head).toNat
            then { s.tks e with enable := false, busy := false, overrun := true }
            else { s.tks e with tailCount := v, busy := v != (s.tks e).head })) ∧
    (∀ (d : List Byte) (k : Tks), k = s.tks e → k.enable = true → k.tailCount ≠ k.head → s.bad = [] →
      (∀ i, (s.stack i).offline = false) → s.halfClosed true = false → s.alm.authRun + 1 < max 1 s.alm.authLimit.toNat →
      d = s.hbmBytes (k.lRing + 64 * (k.head.toNat % 2 ^ k.lSize)) 64 →
      ∃ s' r, Sys2Proof.Machine.exec (.tksRequest h) s = .next s' ∧ s'.tks e = { k with
          head := k.head + 1, lastStatus := r.status, busy := k.tailCount != k.head + 1 } ∧
        (zeroTemp (leAt d 0x20 4) = false → byteAt d 1 < 16 → s.hasKey (4 + byteAt d 1) = true →
          s.keyPasses (4 + byteAt d 1) = false →
          r = tksNone 0x71 0 ∧ s'.hasKey (4 + byteAt d 1) = false ∧ s'.sec.ksBad = satAdd 8 s.sec.ksBad 1) ∧
        (s.tksBad k.lClause d = true → r = tksNone 0x71 0) ∧ (s.tksBad k.lClause d = false → r = (s.tksRun k.lClause d).1) ∧
        (s.tksBad k.lClause d = false → leAt d 0x30 8 + 16 ≤ k.lTail + 4 ∨ k.lTail + 8 ≤ leAt d 0x30 8 →
          ∀ b, s'.hbmByte b =
            if leAt d 0x30 8 ≤ b ∧ b < leAt d 0x30 8 + 16 then r.bytes.getD (b - leAt d 0x30 8) 0
            else if k.lTail + 4 ≤ b ∧ b < k.lTail + 8 then (leBytes 4 (k.head + 1).toNat).getD (b - (k.lTail + 4)) 0
            else s.hbmByte b))) ∧
  (∀ (pats : List Nat) (t k p u i : Nat) (x : Int), zeroTemp t = true → (pats.map logitVal)[i]? = some (some x) → -logitInf < x →
    (∀ (j : Nat) (y : Int), (pats.map logitVal)[j]? = some (some y) → y ≤ x ∧ (j < i → y < x)) →
    (tksPipe pats t k p u).token = i ∧ (tksPipe pats t k p u).kept = 1 ∧ (tksPipe pats t k p u).status = 0)

/-- What a trained link sends at a frame boundary: the oldest frame to send again, with the header it had, else a NAK that is owed,
else a new frame with the next sequence number, which stays in the replay buffer, else an idle frame with its ack; a keyless
link sends again VC3's frames alone. What it receives: a codeword or a tag that fails, or a tag on which the two paths disagree,
counts and owes a NAK; of a group that verifies, a frame in sequence advances the receiver and its messages are delivered with the bytes the
frame carries, in the clear, its credit kept back while one waits; a frame out of sequence changes nothing. A NAK brings
everything from its number on back, and the eighth for one number takes the link down; a message in transit goes to the link its
route takes. A keyed link whose entry fails its tag erases the entry and holds. Stated short of the alarm's limit (R353-R357,
R363-R368, R372, R374-R376, R456, R484). -/
def Obligations.LinkFrames : Prop :=
  ∀ (s : State) (n lim : Nat), n < s.links.length → lim = max 1 s.alm.authLimit.toNat → s.alm.authRun < lim →
    ((s.link n).state = .keyed → s.hasKey (20 + n) = true → s.keyPasses (20 + n) = false → s.sec.upset = [] →
      ∀ i ∈ [Instr.linkFrameTransmit n, Instr.linkGroupReceive n { frames := [], tag := [], fecOk := true }],
        ∃ s', Sys2Proof.Machine.exec i s = .next s' ∧ s'.hasKey (20 + n) = false ∧ s'.sec.ksBad = satAdd 8 s.sec.ksBad 1 ∧
          (s'.link n).state = .holding ∧ (s'.link n).trained = false ∧ (s'.link n).keys = none ∧
          (s'.link n).replayBuf = (s.link n).replayBuf) ∧
    (((s.link n).state = .keyed → s.keyPasses (20 + n) = s.hasKey (20 + n)) →
      (s.linkTrained n = false →
        Sys2Proof.Machine.exec (.linkFrameTransmit n) s = .next s ∧
          (∀ g, Sys2Proof.Machine.exec (.linkGroupReceive n g) s = .next s) ∧
          ∀ q, Sys2Proof.Machine.exec (.linkNak n q) s = .next s) ∧
      (s.linkTrained n = true → (s.link n).txEpoch = (s.link n).epoch.toNat → (s.link n).txGroup < 2 ^ 47 →
        (s.link n).rxGroup < 2 ^ 47 →
        (∀ g r, (s.link n).resend = g :: r → ((s.link n).state = .keyed ∨ (s.link n).state = .opened ∧ g.vc = 3) →
          ∃ s' f, Sys2Proof.Machine.exec (.linkFrameTransmit n) s = .next s' ∧ s'.out[s.out.length]? = some (Output.linkFrame n f) ∧
            (s'.link n).nextFsn = (s.link n).nextFsn ∧ (s'.link n).sendNak = (s.link n).sendNak ∧
            ((s.link n).group.length ≠ 15 ∨ g.last = true →
              f = { g with epoch := (s.link n).txEpoch % 2 == 1, payload := f.payload } ∧ (s'.link n).resend = r ∧
              ((s.link n).keys = none → f.payload = g.payload)) ∧
            ((s.link n).group.length = 15 → g.last = false →
              f.kind = 1 ∧ f.last = true ∧ (s'.link n).group = [] ∧ (s'.link n).resend = g :: r)) ∧
        ((∀ g ∈ (s.link n).resend.head?, (s.link n).mayResend g = false) →
          (∀ q, (s.link n).sendNak = some q →
            ∃ s' f, Sys2Proof.Machine.exec (.linkFrameTransmit n) s = .next s' ∧ s'.out[s.out.length]? = some (Output.linkFrame n f) ∧
              f.kind = 2 ∧ f.ack = q ∧ (s'.link n).sendNak = none ∧ (s'.link n).nextFsn = (s.link n).nextFsn ∧
              (s'.link n).retries = satAdd 16 (s.link n).retries 1) ∧
          (∀ m, (s.link n).sendNak = none → s.nextMsg n = some m →
            ∃ s' f, Sys2Proof.Machine.exec (.linkFrameTransmit n) s = .next s' ∧ s'.out[s.out.length]? = some (Output.linkFrame n f) ∧
              f.kind = 0 ∧ f.fsn = (s.link n).nextFsn ∧ f.ack = (s.link n).rxFsn - 1 ∧ f.vc = m.vc ∧
              (s'.link n).nextFsn = (s.link n).nextFsn + 1 ∧
              ∃ g, (s'.link n).replayBuf = (s.link n).replayBuf ++ [g] ∧ f = { g with payload := f.payload } ∧
                m.wire.take 256 <+: g.payload ∧
                ((∀ x ∈ (s.link n).txq, 4 ∣ x.wire.length) → g.payload.length = 4 * g.len.toNat)) ∧
          ((s.link n).sendNak = none → s.nextMsg n = none →
            ∃ s' f, Sys2Proof.Machine.exec (.linkFrameTransmit n) s = .next s' ∧ s'.out[s.out.length]? = some (Output.linkFrame n f) ∧
              f.kind = 1 ∧ f.ack = (s.link n).rxFsn - 1 ∧ f.last = true ∧ (s'.link n).nextFsn = (s.link n).nextFsn))) ∧
      (∀ g : RxGroup, s.linkTrained n = true →
        (g.fecOk = false → ∃ s', Sys2Proof.Machine.exec (.linkGroupReceive n g) s = .next s' ∧
          (s'.link n).uncorr = satAdd 16 (s.link n).uncorr 1 ∧
          (s'.link n).sendNak = (s.link n).sendNak.or (some (s.link n).rxFsn) ∧
          (s'.link n).rxFsn = (s.link n).rxFsn ∧ (s'.link n).rxq = (s.link n).rxq) ∧
        (∀ e c, g.fecOk = true → (e, c) = (s.link n).rxEpochOf g →
          groupTag ((s.link n).rxKey e) (s.link n).protectNow e c g.frames ≠ g.tag ∨ s.agrees .tag = false →
          s.agrees .tag = true ∨ s.alm.authRun + 1 < lim →
          ∃ s', Sys2Proof.Machine.exec (.linkGroupReceive n g) s = .next s' ∧
            (s'.link n).tagFail = satAdd 16 (s.link n).tagFail 1 ∧
            (s'.link n).sendNak = (s.link n).sendNak.or (some (s.link n).rxFsn) ∧
            (s'.link n).rxFsn = (s.link n).rxFsn ∧ (s'.link n).rxq = (s.link n).rxq ∧
            s'.alm.authRun = s.alm.authRun + if s.agrees .tag then 0 else 1) ∧
        (∀ e c f, g.fecOk = true → (e, c) = (s.link n).rxEpochOf g → s.agrees .tag = true →
          groupTag ((s.link n).rxKey e) (s.link n).protectNow e c g.frames = g.tag → (s.link n).inClear e c g.frames = [f] →
          (∀ (ch : Nat) (l : List Byte), f.kind = 0 → f.fsn = (s.link n).rxFsn → (f.vc = 3 ∨ s.linkData n = true) →
            ch = channelOf f.vc f.resp f.cls →
            l = (s.link n).parts.getD ch [] ++ (frameBody f).take (4 * f.len.toNat) →
            ((splitMsgs l.length l).1 = [] →
              ∃ s', Sys2Proof.Machine.exec (.linkGroupReceive n g) s = .next s' ∧ (s'.link n).rxFsn = (s.link n).rxFsn + 1 ∧
                (∀ x, x ∈ (s'.link n).replayBuf ↔ x ∈ (s.link n).replayBuf ∧ (x.fsn - (f.ack + 1)).toNat < 0x8000) ∧
                (s'.link n).rxq = (s.link n).rxq ∧ s'.resps = s.resps) ∧
            (∀ m w, (splitMsgs l.length l).1 = [(m, w)] → s.replay = none → (s.link n).waiting = [] → f.vc ≠ 3 →
              f.resp = false → m.dst = s.devId → asksAccess m.body = true →
              ∃ s', Sys2Proof.Machine.exec (.linkGroupReceive n g) s = .next s' ∧ (s'.link n).rxFsn = (s.link n).rxFsn + 1 ∧
                (s'.link n).rxq = (s.link n).rxq ++ [{ m with vc := f.vc, resp := false, wire := w, buf := some (f.fsn, ch) }] ∧
                (s'.link n).owed = (s.link n).owed ∧ (s'.link n).rxSeq = (s.link n).rxSeq + 1)) ∧
          (f.fsn ≠ (s.link n).rxFsn →
            ∃ s', Sys2Proof.Machine.exec (.linkGroupReceive n g) s = .next s' ∧
              s'.link n = { s.link n with rxEpoch := e, rxGroup := c + 1 })))) ∧
    (∀ q : BitVec 16, s.linkTrained n = true →
      ∃ s', Sys2Proof.Machine.exec (.linkNak n q) s = .next s' ∧
        (∀ x, x ∈ (s'.link n).replayBuf ↔ x ∈ (s.link n).replayBuf ∧ (x.fsn - (q - 1 + 1)).toNat < 0x8000) ∧
        (((s.link n).nakFsn ≠ some q ∨ (s.link n).nakCount < 7) → (s'.link n).resend = (s'.link n).replayBuf ∧
          (s'.link n).trained = true ∧ (s'.link n).nakFsn = some q) ∧
        ((s.link n).nakFsn = some q → 7 ≤ (s.link n).nakCount → (s'.link n).trained = false ∧
          (s'.link n).retrains = satAdd 16 (s.link n).retrains 1)) ∧
    (∀ m r j, (s.link n).transit = m :: r → s.halfUp (linkEast n) = true → s.replay = none →
      s.pickLink (linkEast n) m.srcNode m.dst = some j → j < s.links.length → j ≠ n →
      ∃ s', Sys2Proof.Machine.exec (.linkTransit n) s = .next s' ∧ (s'.link n).transit = r ∧
        (s'.link j).txq = (s.link j).txq ++ [{ m with buf := none, wire := wireBytes m }] ∧ s'.hbm = s.hbm)

/-- A link that is off trains once it detects signal; it opens and sends its hello once every lane has trained, and stays down
otherwise; a keyed link that goes down holds, another trains anew; a hold that expires fails the link and raises the interrupt;
a stopping link goes off; GLK_CMD retrains a link or sends the wake pattern, 32 bits that name the last peer and 8 of idle, which ends
after its time (R352, R370-R372, R384, R386, R403). -/
def Obligations.LinkStates : Prop :=
  ∀ (s : State) (n : Nat), n < s.links.length → s.halfUp (linkEast n) = true →
    (s.linkUnused n = false → (s.link n).trained = false →
      (∃ s', Sys2Proof.Machine.exec (.linkSignalDetect n) s = .next s' ∧ (s'.link n).wake = false ∧
        (s'.link n).state = if (s.link n).state = .off then .training else (s.link n).state) ∧
      ((s.link n).state ≠ .off → ∀ b : BitVec 8, b ≠ 0 →
        ∃ s', Sys2Proof.Machine.exec (.linkTrainingComplete n b) s = .next s' ∧ s'.link n = { s.link n with laneBad := b } ∧
          s'.out = s.out) ∧
      ((s.link n).state ≠ .off →
        ∃ s' h, Sys2Proof.Machine.exec (.linkTrainingComplete n 0) s = .next s' ∧ (s'.link n).trained = true ∧
          (s'.link n).state = (if (s.link n).state = .training then .opened else (s.link n).state) ∧
          s'.out = s.out ++ [Output.linkHello n h] ∧ h.keyId = s.idKeyId ∧ h.protect = (s.link n).protectNow) ∧
      (s.hostUp = true →
        ∃ s', Sys2Proof.Machine.exec (.glkCmdWake n) s = .next s' ∧ (s'.link n).wake = true ∧
          ∃ l, s'.out = s.out ++ [Output.wakePattern n l] ∧ l.length = 40 ∧
            (∀ i, i < 32 → l[i]? = some (((0xAA57 : BitVec 16) ++ (s.link n).peerId).getLsbD (31 - i))) ∧
            ∀ i, 32 ≤ i → i < 40 → l[i]? = some false)) ∧
    (∀ i ∈ [Instr.linkDown n, Instr.glkCmdRetrain n], (s.link n).state ≠ .off → s.hostUp = true →
      ∃ s', Sys2Proof.Machine.exec i s = .next s' ∧ (s'.link n).trained = false ∧ (s'.link n).keys = none ∧
        (s'.link n).retrains = satAdd 16 (s.link n).retrains 1 ∧ (s'.link n).replayBuf = (s.link n).replayBuf ∧
        (s'.link n).state = (if (s.link n).state = .keyed ∨ (s.link n).state = .holding then .holding
          else if (s.link n).state = .failed then .failed else .training) ∧ ∀ j, j ≠ n → s'.link j = s.link j) ∧
    ((s.link n).state = .holding →
      ∃ s', Sys2Proof.Machine.exec (.linkHoldExpire n) s = .next s' ∧ s'.link n = { s.link n with state := .failed } ∧
        s'.dev.irqStat.getLsbD 0 = true) ∧
    ((s.link n).state ≠ .holding → Sys2Proof.Machine.exec (.linkHoldExpire n) s = .next s) ∧
    ((s.link n).stopping = true →
      ∃ s', Sys2Proof.Machine.exec (.linkSwitchOff n) s = .next s' ∧ (s'.link n).state = .off ∧ (s'.link n).stopping = false ∧
        (s'.link n).keys = none) ∧
    ((s.link n).stopping = false → Sys2Proof.Machine.exec (.linkSwitchOff n) s = .next s) ∧
    ∃ s', Sys2Proof.Machine.exec (.wakePatternTimeout n) s = .next s' ∧ s'.link n = { s.link n with wake := false } ∧
      ∀ j, j ≠ n → s'.link j = s.link j

/-- Ends whose protect values differ refuse; a hello on a keyless link starts its key set-up, as a retry and a rekey do, with a
report drawn for it, or waits for the hopper, or ends with reason 6 where none serves; a peer that fails a check, or a check on which the two
paths disagree, is refused with its reason, and another is answered with the device's ciphertext once the hopper has given its
bytes; the peer's verified second message keys the link in a new epoch and stores its key. Stated short of the alarm's limit
(R271, R274, R358-R362, R453, R454, R484). -/
def Obligations.LinkKeys : Prop :=
  ∀ (s : State) (n lim : Nat), n < s.links.length → s.linkTrained n = true → lim = max 1 s.alm.authLimit.toNat →
    s.alm.authRun < lim →
    (∀ h : Hello, h.protect ≠ (s.link n).protectNow →
      ∃ s', Sys2Proof.Machine.exec (.linkHello n h) s = .next s' ∧ (s'.link n).state = .refused ∧ (s'.link n).refuse = 1 ∧
        (s'.link n).keys = none ∧ (s'.link n).peerId = h.devId ∧ (s'.link n).met = true) ∧
    (∀ (h : Hello) (i : Instr),
      (i = .linkHello n h ∧ h.protect = (s.link n).protectNow ∧ (s.link n).keys = none ∨
        i = .linkKeySetupRetry n ∧ (s.link n).met = true ∧ (s.link n).keys = none ∨
        i = .glkCmdRekey n ∧ (s.link n).met = true ∧ (s.link n).state = .keyed ∧ (s.link n).switched = true ∧ s.hostUp = true) →
      s.stewardRuns (linkEast n) = true → (s.link n).setup = none → (s.link n).state ≠ .refused → s.liveDraws = [] →
      (s.serves false = false → s.serves true = false →
        ∃ s', Sys2Proof.Machine.exec i s = .next s' ∧ (s'.link n).refuse = 6 ∧ (s'.link n).setup = none ∧ s'.out = s.out) ∧
      (s.draw 96 = .wait →
        ∃ s' x, Sys2Proof.Machine.exec i s = .next s' ∧ (s'.link n).setup = some x ∧ x.unsent = true ∧
          s'.draws = [DrawReq.linkStart n] ∧ s'.out = s.out) ∧
      (∀ l t, s.draw 96 = .ok l t → s.keyPasses 0 = s.hasKey 0 →
        ∃ s' x r e, Sys2Proof.Machine.exec i s = .next s' ∧ (s'.link n).setup = some x ∧ x.nonce = l.take 32 ∧
          x.peerStep1 = none ∧ s'.out = s.out ++ [Output.linkKey n (.step1 s.deviceCert caCert r (l.take 32) e)] ∧
          slice r 0x10 32 = fitTo 32 (l.take 32) ∧ (s'.link n).state = (s.link n).state ∧ (s'.link n).keys = (s.link n).keys)) ∧
    (s.linkMet n = true →
      (∀ x cert ca report nonce ek why, (s.link n).setup = some x → x.peerStep1 = none →
        (if certChains cert ca && s.agrees .signature then peerRefusal (s.link n).debugPeer cert report else some 2) = some why →
        s.agrees .signature = true ∨ s.alm.authRun + 1 < lim →
        ∃ s', Sys2Proof.Machine.exec (.linkKeySetupMessage n (.step1 cert ca report nonce ek)) s = .next s' ∧
          s'.link n = { s.link n with setup := none, refuse := why } ∧ s'.out = s.out ∧
          s'.alm.authRun = s.alm.authRun + if s.agrees .signature then 0 else 1) ∧
      (∀ x cert ca report nonce ek, (s.link n).setup = some x → x.peerStep1 = none → certChains cert ca = true →
        s.agrees .signature = true → peerRefusal (s.link n).debugPeer cert report = none →
        (s.serves false = false → s.serves true = false →
          ∃ s', Sys2Proof.Machine.exec (.linkKeySetupMessage n (.step1 cert ca report nonce ek)) s = .next s' ∧
            s'.link n = { s.link n with setup := none, refuse := 6 } ∧ s'.out = s.out) ∧
        (s.ask (.linkAnswer n cert ca report nonce ek) = .wait →
          ∃ s', Sys2Proof.Machine.exec (.linkKeySetupMessage n (.step1 cert ca report nonce ek)) s = .next s' ∧
            s'.links = s.links ∧ s'.draws.getLast? = some (.linkAnswer n cert ca report nonce ek) ∧ s'.out = s.out) ∧
        (∀ l t, s.ask (.linkAnswer n cert ca report nonce ek) = .ok l t → s.keyPasses 0 = s.hasKey 0 →
          ∃ s' y sig, Sys2Proof.Machine.exec (.linkKeySetupMessage n (.step1 cert ca report nonce ek)) s = .next s' ∧
            (s'.link n).setup = some y ∧ y.peerStep1 = some (cert ++ ca ++ report ++ nonce ++ ek) ∧ y.sentStep1 = x.sentStep1 ∧
            y.ourSecret = Config.mlkemSecret ek l ∧
            s'.out = s.out ++ [Output.linkKey n (.step2 (fitTo 1568 (Config.mlkemCipher ek l)) sig)])) ∧
      (∀ x ct sig, (s.link n).setup = some x → x.peerStep1 ≠ none →
        ((Config.falconVerify x.peerKey (x.transcript (s.link n).lower [ct]) sig = false ∨ s.agrees .signature = false) →
          s.agrees .signature = true ∨ s.alm.authRun + 1 < lim →
          ∃ s', Sys2Proof.Machine.exec (.linkKeySetupMessage n (.step2 ct sig)) s = .next s' ∧
            s'.link n = { s.link n with setup := none, refuse := 3 } ∧ s'.sec.store = s.sec.store ∧
            s'.alm.authRun = s.alm.authRun + if s.agrees .signature then 0 else 1) ∧
        (Config.falconVerify x.peerKey (x.transcript (s.link n).lower [ct]) sig = true → s.agrees .signature = true →
          ∃ (s' : State) (k : List Byte), Sys2Proof.Machine.exec (.linkKeySetupMessage n (.step2 ct sig)) s = .next s' ∧
            (s'.link n).state = .keyed ∧ (s'.link n).keys = some (k.take 32, k.drop 32) ∧ k.length = 64 ∧
            (s'.link n).epoch = (s.link n).epoch + 1 ∧ (s'.link n).setup = none ∧ (s'.link n).refuse = 0 ∧
            s'.hasKey (20 + n) = true ∧ ∀ j, j ≠ 20 + n → s'.hasKey j = s.hasKey j)))

/-- BAR0: an access that is misaligned or of another width completes with Unsupported Request, a W1C bit is cleared by a 1, a
plain register takes what is written, a read-only one keeps its value; BAR2's size is a power of two from 1 GiB to 1 TiB. The
plait bus: after the symbols of a whole transaction to its own address the device performs the access and begins its response
with a mark, one to another address does nothing, a mark where a data symbol is due begins anew, an acknowledge that was withheld
comes once the bus is served, the master's acknowledge moves the response on, and its absence ends it. A mailbox reads a tile's
SRAM into its window, under a hold of the clause where that is asked. The TAP selects a register and shifts it; an access through
it is refused at debug level 0 and works above it. Stated short of the alarm's limits (R11, R397, R398, R401-R403, R476, R487,
R514-R520, R522-R527). -/
def Obligations.Management : Prop :=
  (∀ (s : State), s.up = true →
    (∀ off bytes val, off < 0x4000000 → bytes ≠ 4 ∧ bytes ≠ 8 ∨ off % bytes ≠ 0 →
      Sys2Proof.Machine.exec (.registerWrite off (.bar0 bytes) val) s =
        .next { s with dev := { s.dev with unsupp := true }, out := s.out ++ [Output.unsupportedRequest] }) ∧
    (∀ (val : BitVec 64) (bytes : Nat), bytes = 4 ∨ bytes = 8 → s.dev.ready = true → s.dev.recovery = false →
      Sys2Proof.Machine.exec (.registerWrite 0x20 (.bar0 4) val) s =
        .next { s with dev := { s.dev with irqMask := val.extractLsb' 0 7 } } ∧
      Sys2Proof.Machine.exec (.registerWrite 0x18 (.bar0 bytes) val) s =
        .next { s with dev := { s.dev with irqStat := s.dev.irqStat &&& ~~~val.extractLsb' 0 7 } } ∧
      Sys2Proof.Machine.exec (.registerWrite 0 (.bar0 bytes) val) s = .next s ∧
      Sys2Proof.Machine.exec (.registerWrite 8 (.bar0 bytes) val) s = .next s ∧
      Sys2Proof.Machine.exec (.registerWrite 0x110 (.bar0 8) val) s =
        .next { s with weave := { s.weave with rbAddr := val } }) ∧
    (∀ (off : Nat) (val : BitVec 64), Sys2Proof.Machine.exec (.registerWrite off .bar2Size val) s =
      .next (if 30 ≤ val.toNat ∧ val.toNat ≤ 40 then { s with dev := { s.dev with bar2Log2 := val.toNat } } else s)) ∧
    ∀ (off : Nat) (val : BitVec 64), Sys2Proof.Machine.exec (.registerWrite off .aerStatus val) s =
      .next { s with dev := { s.dev with unsupp := s.dev.unsupp && !val.getLsbD 20 } }) ∧
  (∀ (s : State), s.plait.owed = false → s.plait.closed = false →
    (∀ b : List Byte, PlaitIdle s.plait → s.pwr.stbyReset = false → plaitDue (byteBits b) = true →
      (byteAt b 0 / 2 ≠ s.plaitAddr →
        ∃ s', Sys2Proof.Machine.exec (.plaitTransaction (masterSends b)) s = .next s' ∧ s' = { s with plait := s'.plait } ∧
          s'.plait.response = []) ∧
      (byteAt b 0 / 2 = s.plaitAddr → s.plaitServes = true →
        (plaitWrong b = true →
          ∃ s', Sys2Proof.Machine.exec (.plaitTransaction (masterSends b)) s = .next s' ∧ s' = { s with plait := s'.plait } ∧
            Answers s'.plait [0x72, crc8 [0x72]]) ∧
        (plaitWrong b = false → (b.getD 0 0).getLsbD 0 = true → s.halfClosed true = false →
          ∃ s' l p, Sys2Proof.Machine.exec (.plaitTransaction (masterSends b)) s = .next s' ∧
            s' = { s with plait := s'.plait } ∧ Answers s'.plait (0 :: l ++ [crc8 (0 :: l)]) ∧
            l.length = (if byteAt b 5 = 0x40 then 8 else 4) ∧
            (beNat (slice b 1 4) = 0x20 → byteAt b 5 = 0 → beNat l = s.dev.irqMask.toNat) ∧
            (beNat (slice b 1 4) < 0x4000000 →
              beNat l = ({ s with plait := p }.bar0Read (beNat (slice b 1 4)) (byteAt b 5 == 0x40)).1 % 2 ^ (8 * l.length))) ∧
        (plaitWrong b = false → (b.getD 0 0).getLsbD 0 = false → beNat (slice b 1 4) = 0x20 → byteAt b 5 = 0 →
          s.dev.ready = true → s.dev.recovery = false →
          ∃ s', Sys2Proof.Machine.exec (.plaitTransaction (masterSends b)) s = .next s' ∧
            s' = { s with plait := s'.plait, dev := s'.dev } ∧
            s'.dev = { s.dev with irqMask := BitVec.ofNat 7 (beNat (slice b 6 4)) } ∧
            Answers s'.plait [0, crc8 [0]]))) ∧
    (s.plait.response = [] → s.plait.d0 = false → s.plait.d1 = false → s.plait.inTxn = true → plaitDue s.plait.bits = false →
      s.pwr.vigil = false → s.pwr.stbyReset = false →
      Sys2Proof.Machine.exec (.plaitTransaction [.rails true true]) s =
        .next { s with plait := { s.plait with d0 := true, d1 := true, ack := true, bits := [] } }) ∧
    (∀ x r, s.plait.response = x :: r → s.plait.ack = false →
      ∃ s', Sys2Proof.Machine.exec (.plaitTransaction [.ack true, .ack false]) s = .next s' ∧
        s' = { s with plait := s'.plait } ∧ s'.plait.response = r ∧ s'.plait.ack = false ∧
        symbolOf s'.plait.d0 s'.plait.d1 = r.headD .spacer)) ∧
  (∀ (s : State), s.plait.owed = true → s.plaitServes = true → s.plait.closed = false →
    Sys2Proof.Machine.exec (.plaitTransaction []) s = .next { s with plait := { s.plait with ack := true, owed := false } }) ∧
  (∀ (s : State),
    (s.plait.response ≠ [] → Sys2Proof.Machine.exec .plaitResponseAbandon s =
      .next { s with plait := {
        d0 := false, d1 := false, ack := false, owed := false, inTxn := false, bits := [], closed := false, response := [] } }) ∧
    (s.plait.response = [] → Sys2Proof.Machine.exec .plaitResponseAbandon s = .next s)) ∧
  (∀ (s : State) (h : Half), s.hostUp = true → s.halfUp (isEast h) = true → (s.mbox (isEast h)).busy = false →
    (∀ (r : MbReq) (t : Nat), s.stewardRuns (isEast h) = true → r = mbReq (s.mbox (isEast h)).req →
      (r.reservedOk = false →
        ∃ s', Sys2Proof.Machine.exec (.mailboxRequest h false) s = .next s' ∧ s'.tiles = s.tiles ∧ s'.hbm = s.hbm ∧
          s'.mbox (isEast h) =
            { s.mbox (isEast h) with busy := false, done := true, status := 0x72, viaTap := false, holds := [] }) ∧
      (r.reservedOk = true → r.object = 1 → r.flags ≤ 1 → s.logicalOf r.tile = some t → s.halfClosed true = false →
        r.offset % 8 = 0 → r.len % 8 = 0 → r.offset + r.len ≤ sramSize → r.len ≤ 0x80000 → (s.tile t).sram.Wf →
        (r.flags = 0 ∨ (s.tile t).clause = none →
          ∃ s', Sys2Proof.Machine.exec (.mailboxRequest h false) s = .next s' ∧ (s'.mbox (isEast h)).done = true ∧
            (s'.mbox (isEast h)).busy = false ∧ (s'.mbox (isEast h)).status = 0 ∧ s'.hbm = s.hbm ∧
            (∀ u, (s'.tile u).sram = (s.tile u).sram) ∧
            ∀ i, i < r.len → (s'.mbox (isEast h)).window.get i = s.sramByte t (r.offset + i)) ∧
        (∀ c, r.flags = 1 → (s.tile t).clause = some c →
          ∃ s₁, s₁ = s.modMbox (isEast h) (fun m => { m with busy := true, viaTap := false, holds := s.members c }) ∧
            (∀ u ∈ s.members c, ∀ p op f, s₁.issuable u p op f = none) ∧
            (s₁.settled c = false → Sys2Proof.Machine.exec (.mailboxRequest h false) s = .next s₁) ∧
            (s₁.settled c = true →
              ∃ s', Sys2Proof.Machine.exec (.mailboxRequest h false) s = .next s' ∧ (s'.mbox (isEast h)).done = true ∧
                (s'.mbox (isEast h)).busy = false ∧ (s'.mbox (isEast h)).status = 0 ∧ (s'.mbox (isEast h)).holds = [] ∧
                ∀ i, i < r.len → (s'.mbox (isEast h)).window.get i = s.sramByte t (r.offset + i))))) ∧
    (s.sec.debug = 0 → s.alm.dbgRun + 1 < max 1 s.alm.dbgLimit.toNat →
      ∃ s', Sys2Proof.Machine.exec (.mailboxRequest h true) s = .next s' ∧ s'.mbox (isEast h) = s.mbox (isEast h) ∧
        s'.alm.dbgRun = s.alm.dbgRun + 1)) ∧
  (∀ (s : State),
    (∀ x code, x = .trst ∧ code = 2 ∨ x = .ir code →
      Sys2Proof.Machine.exec (.tapDbgAccess x) s = .next { s with tap := { s.tap with ir := code } }) ∧
    (∀ tdi : List Bool, s.tap.ir = 2 → tdi.length = 32 →
      ∃ s', Sys2Proof.Machine.exec (.tapDbgAccess (.dr tdi)) s = .next s' ∧ s' = { s with tap := s'.tap, free := s'.free } ∧
        s'.tap = { s.tap with tdo := tab 32 fun i => bitAt idCode i }) ∧
    (∀ tdi : List Bool, s.tap.ir ∉ [0, 1, 2, 0x10, 0x11, 0x12, 0x20] → tdi ≠ [] →
      ∃ s', Sys2Proof.Machine.exec (.tapDbgAccess (.dr tdi)) s = .next s' ∧ s' = { s with tap := s'.tap, free := s'.free } ∧
        s'.tap = { s.tap with tdo := false :: tdi.dropLast }) ∧
    (∀ tdi : List Bool, s.tap.ir = 0x11 → tdi.length = 11008 → s.up = true →
      ∃ s', Sys2Proof.Machine.exec (.tapDbgAccess (.dr tdi)) s = .next s' ∧
        s'.sec = { s.sec with token := s'.sec.token } ∧
        (∀ i j, i < 1376 → j < 8 → (s'.sec.token.get i).getLsbD j = tdi.getD (8 * i + j) false) ∧
        ∀ i, 1376 ≤ i → s'.sec.token.get i = s.sec.token.get i) ∧
    (∀ (dr : BitVec 104) (tdi : List Bool), s.up = true → s.tap.ir = 0x20 → tdi = tab 104 (fun i => dr.getLsbD i) →
      (dr.extractLsb' 102 2 = 1 ∨ dr.extractLsb' 102 2 = 2) →
      (s.sec.debug = 0 → s.alm.dbgRun + 1 < max 1 s.alm.dbgLimit.toNat →
        ∃ s', Sys2Proof.Machine.exec (.tapDbgAccess (.dr tdi)) s = .next s' ∧ s'.tap = { s.tap with tdo := s'.tap.tdo } ∧
          s'.dev = s.dev ∧ s'.alm.dbgRun = s.alm.dbgRun + 1) ∧
      (s.sec.debug ≠ 0 → dr.extractLsb' 102 2 = 2 → dr.getLsbD 101 = false → dr.extractLsb' 64 32 = (0x20 : BitVec 32) →
        s.dev.ready = true → s.dev.recovery = false →
        ∃ s', Sys2Proof.Machine.exec (.tapDbgAccess (.dr tdi)) s = .next s' ∧
          s'.dev = { s.dev with irqMask := dr.extractLsb' 0 7 } ∧
          s'.tap = { s.tap with tdo := s'.tap.tdo, status := 0, offset := 0x20, data := 0 }) ∧
      (s.sec.debug ≠ 0 → dr.extractLsb' 102 2 = 1 → dr.getLsbD 101 = true → dr.extractLsb' 64 32 = (0x20 : BitVec 32) →
        s.dev.recovery = false →
        ∃ s', Sys2Proof.Machine.exec (.tapDbgAccess (.dr tdi)) s = .next s' ∧
          s' = { s with tap := s'.tap, free := s'.free } ∧
          s'.tap = { s.tap with
            tdo := s'.tap.tdo, status := 0, offset := 0x20, data := BitVec.ofNat 64 s.dev.irqMask.toNat })) ∧
    (s.up = true → ∃ s', Sys2Proof.Machine.exec (.tapDbgCmd 4) s = .next s' ∧ s'.sec = { s.sec with debug := 0 } ∧
      s'.tap.ir = 0x12 ∧ ∀ t, (s'.tile t).dbg.held = false))

/-- Vector 0 is sent each time a bit of DEV_IRQ_STAT rises while the same bit of DEV_IRQ_MASK is 1, and at no other rise (R403). -/
def Obligations.InterruptVector : Prop :=
  ∀ (s : State) (b : Nat), b < 7 → ∃ s', s.raise b = s' ∧
    (∀ i, i < 7 → s'.dev.irqStat.getLsbD i = (s.dev.irqStat.getLsbD i || i == b)) ∧
    s'.out = s.out ++ (if s.dev.irqStat.getLsbD b = false ∧ s.dev.irqMask.getLsbD b = true then [Output.msix 0] else []) ∧
    s' = { s with out := s'.out, dev := { s.dev with irqStat := s'.dev.irqStat } }

/-! ## The whole machine -/

/-- State.reset holds the values that the manual gives for reset, with nothing running and nothing waiting, and is a kept state;
that reset memory lists no byte is the model's choice (log entry 5). -/
def Obligations.ResetValues : Prop :=
  Kept State.reset ∧ State.reset.pending = [] ∧ State.reset.started = [] ∧ State.reset.hbm = [] ∧ State.reset.dev.ready = false ∧
    State.reset.dev.irqStat = 0 ∧ State.reset.dev.irqMask = 0 ∧ State.reset.weave.installed = none ∧
    State.reset.weave.staged = none ∧ State.reset.sec.debug = 0 ∧ State.reset.alm.latched = 0 ∧
    State.reset.alm.policy = 0x666 ∧ State.reset.hopW.reserve = 32 ∧ State.reset.hopW.persist = 100 ∧
    State.reset.pwr.vsetW = 750 ∧ (∀ q ∈ State.reset.queues, q.enable = false) ∧
    (∀ k ∈ State.reset.links, k.state = .off ∧ k.hold = 1000) ∧
    ∀ T ∈ State.reset.tiles, T.clause = none ∧ T.slots = List.replicate 64 none ∧ T.cal.cal = 1 ∧ T.fault.valid = false

/-- Whatever the command, a step from a kept state that answers a next state answers a kept state with the same fuses, and takes one
command from the queue and adds none. -/
def Obligations.StepKeeps : Prop :=
  ∀ (s s' : State), Kept s → Sys2Proof.Machine.step s = .next s' →
    Kept s' ∧ s'.fuse = s.fuse ∧ s'.pending = s.pending.tail
end

