-- ==== Sys2Proof/Laws/Issue.lean ====
section
/-! SUPPORT. What the issue of a sequencer instruction comes to, case by case. -/
namespace Sys2Proof.Machine

theorem issue_ok {op : BitVec 8} {u : Use} {t p : Nat} {f : Fields} {body : Ctx → Res} {s : State} {x : Ctx} {s' : State}
    {ph : Option Phrase} {fl : BitVec 5} (h : Runs op u s t p f x) (hb : body x = .ok s' ph fl) :
    issue op u t p f body s = .next (x.retire op s' ph fl) := by
  obtain ⟨h1, h2, h3⟩ := h
  simp [issue, h1, h2, h3, hb]

theorem issue_fault {op : BitVec 8} {u : Use} {t p : Nat} {f : Fields} {body : Ctx → Res} {s : State} {x : Ctx} {cause : Nat}
    {addr : BitVec 64} {detail : Option (BitVec 32)} (h : Runs op u s t p f x) (hb : body x = .fault cause addr detail) :
    issue op u t p f body s = .next (x.retireFault op cause addr detail) := by
  obtain ⟨h1, h2, h3⟩ := h
  simp [issue, h1, h2, h3, hb]

theorem issue_wait {op : BitVec 8} {u : Use} {t p : Nat} {f : Fields} {body : Ctx → Res} {s : State} {x : Ctx}
    (h : Runs op u s t p f x) (hb : body x = .wait) : issue op u t p f body s = .next s := by
  obtain ⟨h1, h2, h3⟩ := h
  simp [issue, h1, h2, h3, hb]

theorem issue_arrayFault {op : BitVec 8} {u : Use} {t p : Nat} {f : Fields} {body : Ctx → Res} {s : State} {x : Ctx}
    {cause : Nat} (h : Runs op u s t p f x) (hb : body x = .arrayFault cause) :
    issue op u t p f body s = .next (x.retireArray op cause) := by
  obtain ⟨h1, h2, h3⟩ := h
  simp [issue, h1, h2, h3, hb]

/-- An instruction whose draw finds no key: the fault of cause 10, and an entry whose tag fails is lost (R170, R456). -/
theorem issue_lostKey {op : BitVec 8} {u : Use} {t p : Nat} {f : Fields} {body : Ctx → Res} {s : State} {x : Ctx}
    {slot : Nat} (h : Runs op u s t p f x) (hb : body x = .lostKey slot) :
    issue op u t p f body s = .next ((x.retireFault op 10 0 none).loseSlot slot) := by
  obtain ⟨h1, h2, h3⟩ := h
  simp [issue, h1, h2, h3, hb]

theorem issue_illegal {op : BitVec 8} {u : Use} {t p : Nat} {f : Fields} {body : Ctx → Res} {s : State} {x : Ctx}
    (h1 : s.issuable t p op f = some x) (h2 : bpHit x.T p x.ph.pc = none) (h3 : u.legal f = false) :
    issue op u t p f body s = .next (x.retireFault op 1 0 none) := by
  simp [issue, h1, h2, h3, Res.illegal]

/-- What an instruction runs on is what stands in the state. -/
theorem issuable_eq {s : State} {t p : Nat} {op : BitVec 8} {f : Fields} {x : Ctx} (h : s.issuable t p op f = some x) :
    x.s = s ∧ x.t = t ∧ x.p = p ∧ x.f = f ∧ x.T = s.tile t ∧ s.phraseAt t p = some x.ph ∧ (s.tile t).clause = some x.c ∧
      s.clauseRec x.c = some x.cr ∧ (s.tile t).imem[x.ph.pc]? = some (wordOf op f) := by
  simp only [State.issuable] at h
  split at h
  · rename_i ph c h1 h2
    split at h
    · rename_i r h3
      split at h
      · rename_i h4
        simp only [Bool.and_eq_true, beq_iff_eq] at h4
        obtain rfl := Option.some.inj h
        exact ⟨rfl, rfl, rfl, rfl, rfl, h1, h2, h3, h4.2⟩
      · cases h
    · cases h
  · cases h

end Sys2Proof.Machine
end

