-- ==== Sys2Proof/Laws/Memory.lean ====
section
/-! SUPPORT. The memory laws: every operation keeps the canonical form; a read after a write returns what was written there and
what stood elsewhere; and what the operations over HBM and SRAM that are built on them leave. -/
namespace Sys2Proof.Machine

/-! ## Cells -/

theorem cells_ge : ∀ (l : List Byte) (a : Nat) (c : Host.Cell), c ∈ Mem.cells a l → a ≤ c.1 ∧ c.1 < a + l.length ∧ c.2 ≠ 0
  | [], _, _, h => by simp [Mem.cells] at h
  | b :: r, a, c, h => by
    simp only [Mem.cells] at h
    split at h
    · have := cells_ge r (a + 1) c h
      simp only [List.length_cons]
      exact ⟨by omega, by omega, this.2.2⟩
    · rename_i hb
      rcases List.mem_cons.mp h with rfl | h
      · simp only [List.length_cons]
        exact ⟨Nat.le_refl _, by omega, hb⟩
      · have := cells_ge r (a + 1) c h
        simp only [List.length_cons]
        exact ⟨by omega, by omega, this.2.2⟩

theorem cells_sorted : ∀ (l : List Byte) (a : Nat), (Mem.cells a l).Pairwise (fun x y => x.1 < y.1)
  | [], _ => List.Pairwise.nil
  | b :: r, a => by
    simp only [Mem.cells]
    split
    · exact cells_sorted r (a + 1)
    · refine List.pairwise_cons.mpr ⟨?_, cells_sorted r (a + 1)⟩
      intro c hc
      have := cells_ge r (a + 1) c hc
      simp only
      omega

/-- Bytes laid from a are a memory in canonical form. -/
theorem cells_wf (a : Nat) (l : List Byte) : (Mem.cells a l).Wf :=
  ⟨cells_sorted l a, fun c hc => (cells_ge l a c hc).2.2⟩

theorem get_nil (x : Nat) : Mem.get [] x = 0 := rfl

theorem get_cons (c : Host.Cell) (m : Mem) (x : Nat) : Mem.get (c :: m) x = if c.1 = x then c.2 else m.get x := by
  simp only [Mem.get, List.find?_cons]
  by_cases h : c.1 = x
  · simp [h]
  · have hb : (c.1 == x) = false := by simp [h]
    simp [h, hb]

theorem cells_get : ∀ (l : List Byte) (a x : Nat),
    (Mem.cells a l).get x = if a ≤ x ∧ x < a + l.length then l.getD (x - a) 0 else 0
  | [], a, x => by
    simp only [Mem.cells, get_nil, List.length_nil]
    split <;> simp
  | b :: r, a, x => by
    have ih := cells_get r (a + 1) x
    simp only [Mem.cells, List.length_cons]
    by_cases hx : x = a
    · subst hx
      rw [if_neg (by omega : ¬(x + 1 ≤ x ∧ x < x + 1 + r.length))] at ih
      rw [if_pos (by omega : x ≤ x ∧ x < x + (r.length + 1)), Nat.sub_self, List.getD_cons_zero]
      by_cases hb : b = 0
      · rw [if_pos hb, ih, hb]
      · rw [if_neg hb, get_cons, if_pos rfl]
    · have he : (if a ≤ x ∧ x < a + (r.length + 1) then (b :: r).getD (x - a) 0 else 0) = (Mem.cells (a + 1) r).get x := by
        rw [ih]
        by_cases h : a ≤ x ∧ x < a + (r.length + 1)
        · rw [if_pos h, if_pos (by omega), show x - a = (x - (a + 1)) + 1 by omega, List.getD_cons_succ]
        · rw [if_neg h, if_neg (by omega)]
      rw [he]
      split
      · rfl
      · rw [get_cons, if_neg (fun h : a = x => hx h.symm)]

/-! ## Reads of one byte -/

theorem get_append (m n : Mem) (x : Nat) :
    Mem.get (m ++ n) x = if (m.find? fun c => c.1 == x).isSome then m.get x else n.get x := by
  simp only [Mem.get, List.find?_append]
  cases h : m.find? fun c => c.1 == x <;> simp

theorem get_filter (q : Host.Cell → Bool) (x : Nat) (b : Bool) (hq : ∀ c : Host.Cell, c.1 = x → q c = b) :
    ∀ m : Mem, Mem.get (m.filter q) x = if b then m.get x else 0
  | [] => by simp [get_nil]
  | c :: r => by
    have ih := get_filter q x b hq r
    rw [List.filter_cons]
    by_cases hc : c.1 = x
    · rw [hq c hc]
      cases b
      · simp only [Bool.false_eq_true, if_false] at ih ⊢
        exact ih
      · simp only [if_true] at ih ⊢
        rw [get_cons, get_cons, if_pos hc, if_pos hc]
    · rw [get_cons, if_neg hc]
      split
      · rw [get_cons, if_neg hc, ih]
      · exact ih

theorem get_filter_lt (m : Mem) (b x : Nat) : Mem.get (m.filter fun c => decide (c.1 < b)) x = if x < b then m.get x else 0 := by
  rw [get_filter _ x (decide (x < b)) (fun c hc => by rw [hc])]
  simp

theorem get_filter_ge (m : Mem) (b x : Nat) : Mem.get (m.filter fun c => decide (b ≤ c.1)) x = if b ≤ x then m.get x else 0 := by
  rw [get_filter _ x (decide (b ≤ x)) (fun c hc => by rw [hc])]
  simp

theorem find_none_get {m : Mem} {x : Nat} (h : (m.find? fun c => c.1 == x).isSome = false) : m.get x = 0 := by
  simp only [Mem.get]
  cases h' : m.find? fun c => c.1 == x
  · rfl
  · rw [h'] at h
    cases h

theorem find_out_none {m : Mem} {x : Nat} (h : ∀ c ∈ m, c.1 ≠ x) : (m.find? fun c => c.1 == x).isSome = false := by
  have : (m.find? fun c => c.1 == x) = none := by
    rw [List.find?_eq_none]
    intro c hc
    simp [h c hc]
  rw [this]
  rfl

/-! ## Writes -/

/-- A byte after a write: what was written there, or what stood there. -/
theorem write_get (m : Mem) (a : Nat) (l : List Byte) (x : Nat) :
    (m.write a l).get x = if a ≤ x ∧ x < a + l.length then l.getD (x - a) 0 else m.get x := by
  simp only [Mem.write]
  rw [List.append_assoc, get_append, get_append, get_filter_lt, get_filter_ge, cells_get]
  by_cases h1 : x < a
  · have hc : ((Mem.cells a l).find? fun c => c.1 == x).isSome = false :=
      find_out_none fun c hc => by have := cells_ge l a c hc; omega
    rw [hc, if_neg (by omega : ¬(a ≤ x ∧ x < a + l.length)), if_neg (by omega : ¬(a ≤ x ∧ x < a + l.length)), if_pos h1, if_neg (by omega : ¬(a + l.length ≤ x))]
    split
    · rfl
    · rename_i h
      have hm := find_none_get (Bool.eq_false_iff.mpr h)
      rw [get_filter_lt, if_pos h1] at hm
      rw [hm]
      rfl
  · have ha : ((m.filter fun c => decide (c.1 < a)).find? fun c => c.1 == x).isSome = false :=
      find_out_none fun c hc => by
        have := (List.mem_filter.mp hc).2
        simp only [decide_eq_true_eq] at this
        omega
    rw [ha, if_neg (by simp)]
    by_cases h2 : x < a + l.length
    · rw [if_pos (by omega : a ≤ x ∧ x < a + l.length), if_pos (by omega : a ≤ x ∧ x < a + l.length),
        if_neg (by omega : ¬(a + l.length ≤ x))]
      split
      · rfl
      · rename_i h
        have hm := find_none_get (Bool.eq_false_iff.mpr h)
        rw [cells_get, if_pos (by omega)] at hm
        exact hm.symm
    · have hc : ((Mem.cells a l).find? fun c => c.1 == x).isSome = false :=
        find_out_none fun c hc => by have := cells_ge l a c hc; omega
      rw [hc, if_neg (by omega : ¬(a ≤ x ∧ x < a + l.length)), if_neg (by omega : ¬(a ≤ x ∧ x < a + l.length)), if_pos (by omega : a + l.length ≤ x)]
      simp

/-- A write keeps the canonical form. -/
theorem write_wf {m : Mem} (h : m.Wf) (a : Nat) (l : List Byte) : (m.write a l).Wf := by
  refine ⟨?_, ?_⟩
  · simp only [Mem.write, List.append_assoc]
    refine List.pairwise_append.mpr ⟨h.1.sublist List.filter_sublist, ?_, ?_⟩
    · refine List.pairwise_append.mpr ⟨cells_sorted l a, h.1.sublist List.filter_sublist, ?_⟩
      intro c hc d hd
      have h1 := cells_ge l a c hc
      have h2 := (List.mem_filter.mp hd).2
      simp only [decide_eq_true_eq] at h2
      omega
    · intro c hc d hd
      have h1 := (List.mem_filter.mp hc).2
      simp only [decide_eq_true_eq] at h1
      rcases List.mem_append.mp hd with hd | hd
      · have := cells_ge l a d hd
        omega
      · have h2 := (List.mem_filter.mp hd).2
        simp only [decide_eq_true_eq] at h2
        omega
  · intro c hc
    simp only [Mem.write, List.mem_append] at hc
    rcases hc with (hc | hc) | hc
    · exact h.2 c (List.mem_filter.mp hc).1
    · exact (cells_ge l a c hc).2.2
    · exact h.2 c (List.mem_filter.mp hc).1

/-- Clearing keeps the canonical form. -/
theorem clear_wf {m : Mem} (h : m.Wf) (a n : Nat) : (m.clear a n).Wf := by
  refine ⟨?_, ?_⟩
  · refine List.pairwise_append.mpr ⟨h.1.sublist List.filter_sublist, h.1.sublist List.filter_sublist, ?_⟩
    intro c hc d hd
    have h1 := (List.mem_filter.mp hc).2
    have h2 := (List.mem_filter.mp hd).2
    simp only [decide_eq_true_eq] at h1 h2
    omega
  · intro c hc
    rcases List.mem_append.mp hc with hc | hc <;> exact h.2 c (List.mem_filter.mp hc).1

theorem clear_eq_write (m : Mem) (a n : Nat) : m.clear a n = m.write a (List.replicate n 0) := by
  have hz : ∀ n a, Mem.cells a (List.replicate n 0) = [] := by
    intro n
    induction n with
    | zero => intro a; rfl
    | succ n ih => intro a; rw [List.replicate_succ, Mem.cells, if_pos rfl, ih]
  rw [Mem.write, hz, List.length_replicate, List.append_nil]
  rfl

/-- A byte after a clear. -/
theorem clear_get (m : Mem) (a n x : Nat) : (m.clear a n).get x = if a ≤ x ∧ x < a + n then 0 else m.get x := by
  rw [clear_eq_write, write_get]
  simp only [List.length_replicate]
  split
  · rename_i h
    have : x - a < n := by omega
    simp [List.getD_eq_getElem?_getD, this]
  · rfl

/-! ## Reads of many bytes -/

theorem walk_eq : ∀ (n : Nat) (m : Mem) (a : Nat), m.Pairwise (fun x y => x.1 < y.1) → (∀ c ∈ m, a ≤ c.1) →
    Mem.walk n m a = (List.range n).map fun i => m.get (a + i)
  | 0, _, _, _, _ => rfl
  | n + 1, [], a, hp, _ => by
    have ih := walk_eq n [] (a + 1) List.Pairwise.nil (by simp)
    simp only [Mem.walk, ih, List.range_succ_eq_map, List.map_cons, List.map_map]
    exact congrArg (List.cons 0) (List.map_congr_left fun _ _ => rfl)
  | n + 1, c :: r, a, hp, hk => by
    have hr := List.pairwise_cons.mp hp
    have hc : a ≤ c.1 := hk c (List.mem_cons_self ..)
    simp only [Mem.walk, List.range_succ_eq_map, List.map_cons, List.map_map]
    split
    · rename_i he
      have ih := walk_eq n r (a + 1) hr.2 (fun d hd => by have := hr.1 d hd; omega)
      rw [ih]
      have h0 : Mem.get (c :: r) (a + 0) = c.2 := by simp [Mem.get, he]
      rw [h0]
      refine congrArg _ (List.map_congr_left fun i _ => ?_)
      simp only [Function.comp, Mem.get]
      rw [List.find?_cons_of_neg]
      · simp [Nat.add_assoc, Nat.add_comm 1 i]
      · simp only [beq_iff_eq]
        omega
    · rename_i he
      have ih := walk_eq n (c :: r) (a + 1) hp (fun d hd => by
        rcases List.mem_cons.mp hd with rfl | hd
        · omega
        · have := hr.1 d hd
          omega)
      rw [ih]
      have h0 : Mem.get (c :: r) (a + 0) = 0 := find_none_get (find_out_none fun d hd => by
        rcases List.mem_cons.mp hd with rfl | hd
        · omega
        · have := hr.1 d hd
          omega)
      rw [h0]
      refine congrArg _ (List.map_congr_left fun i _ => ?_)
      simp [Function.comp, Nat.add_assoc, Nat.add_comm 1 i]

theorem dropWhile_get {a x : Nat} (hx : a ≤ x) : ∀ {m : Mem}, Mem.get (m.dropWhile fun c => decide (c.1 < a)) x = m.get x
  | [] => rfl
  | c :: r => by
    simp only [List.dropWhile_cons]
    split
    · rename_i h
      rw [dropWhile_get hx]
      simp only [decide_eq_true_eq] at h
      simp only [Mem.get]
      rw [List.find?_cons_of_neg]
      simp only [beq_iff_eq]
      omega
    · rfl

theorem dropWhile_ge {a : Nat} : ∀ {m : Mem}, m.Pairwise (fun x y => x.1 < y.1) →
    ∀ c ∈ m.dropWhile (fun c => decide (c.1 < a)), a ≤ c.1
  | [], _, c, h => by simp at h
  | d :: r, hp, c, h => by
    have hr := List.pairwise_cons.mp hp
    simp only [List.dropWhile_cons] at h
    split at h
    · exact dropWhile_ge hr.2 c h
    · rename_i hd
      simp only [decide_eq_true_eq] at hd
      rcases List.mem_cons.mp h with rfl | h
      · omega
      · have := hr.1 c h
        omega

/-- A read of many bytes is the read of each one. -/
theorem read_eq {m : Mem} (h : m.Wf) (a n : Nat) : m.read a n = (List.range n).map fun i => m.get (a + i) := by
  rw [Mem.read, walk_eq n _ a (h.1.sublist (List.dropWhile_sublist _)) (dropWhile_ge h.1)]
  exact List.map_congr_left fun i _ => dropWhile_get (by omega)

theorem walk_length : ∀ (n : Nat) (m : Mem) (a : Nat), (Mem.walk n m a).length = n
  | 0, _, _ => rfl
  | n + 1, [], a => by simp [Mem.walk, walk_length n [] (a + 1)]
  | n + 1, c :: r, a => by
    simp only [Mem.walk]
    split <;> simp [walk_length n _ (a + 1)]

@[simp] theorem read_length (m : Mem) (a n : Nat) : (m.read a n).length = n := walk_length n _ a

/-- What was written is what a read there returns. -/
theorem read_write {m : Mem} (h : m.Wf) (a : Nat) (l : List Byte) : (m.write a l).read a l.length = l := by
  rw [read_eq (write_wf h a l)]
  refine List.ext_getElem (by simp) fun i h1 h2 => ?_
  simp only [List.getElem_map, List.getElem_range, write_get]
  rw [if_pos (by omega)]
  simp [List.getD_eq_getElem?_getD, h2]

/-- A read apart from a write returns what stood there. -/
theorem read_write_apart {m : Mem} (h : m.Wf) (a : Nat) (l : List Byte) (b n : Nat) (hd : b + n ≤ a ∨ a + l.length ≤ b) :
    (m.write a l).read b n = m.read b n := by
  rw [read_eq (write_wf h a l), read_eq h]
  refine List.map_congr_left fun i hi => ?_
  rw [write_get, if_neg]
  have := List.mem_range.mp hi
  omega

/-! ## Little-endian numbers (R9) -/

@[simp] theorem leBytes_length : ∀ n v, (leBytes n v).length = n
  | 0, _ => rfl
  | n + 1, v => by simp [leBytes, leBytes_length n]

theorem leNat_leBytes : ∀ n v, leNat (leBytes n v) = v % 256 ^ n
  | 0, v => by simp [leBytes, leNat, Nat.mod_one]
  | n + 1, v => by
    rw [leBytes, leNat, leNat_leBytes n, BitVec.toNat_ofNat, Nat.pow_succ 256 n, Nat.mul_comm (256 ^ n) 256, Nat.mod_mul]

/-- A number written is what a read of it returns, modulo its width. -/
theorem readLe_writeLe {m : Mem} (h : m.Wf) (a n v : Nat) : (m.writeLe a n v).readLe a n = v % 256 ^ n := by
  have := read_write h a (leBytes n v)
  rw [leBytes_length] at this
  rw [Mem.readLe, Mem.writeLe, this, leNat_leBytes]

/-! ## HBM -/

/-- A raw write of HBM keeps the canonical form. -/
theorem hbmWriteRaw_wf {s : State} (h : s.hbm.Wf) (a : Nat) (l : List Byte) : (s.hbmWriteRaw a l).hbm.Wf := by
  simp only [State.hbmWriteRaw]
  refine write_wf ?_ a l
  generalize (linesOf a l.length).filter (fun i => s.bad.contains i) = heal
  induction heal generalizing s with
  | nil => exact h
  | cons i r ih =>
    exact @ih { s with hbm := s.hbm.clear (64 * i) 64 } (clear_wf h _ _)

/-- A write of HBM keeps the canonical form. -/
theorem hbmWrite_wf {s : State} (h : s.hbm.Wf) (a : Nat) (l : List Byte) : (s.hbmWrite a l).1.hbm.Wf := by
  simp only [State.hbmWrite]
  split
  · exact h
  · split
    · exact hbmWriteRaw_wf h a l
    · split
      · exact h
      · exact hbmWriteRaw_wf h _ _

/-- Where no line is bad, a raw write leaves its bytes and what stood elsewhere. -/
theorem hbmWriteRaw_byte {s : State} (h : s.bad = []) (a : Nat) (l : List Byte) (x : Nat) :
    (s.hbmWriteRaw a l).hbmByte x = if a ≤ x ∧ x < a + l.length then l.getD (x - a) 0 else s.hbmByte x := by
  have : (linesOf a l.length).filter (fun i => s.bad.contains i) = [] := by
    rw [List.filter_eq_nil_iff]
    intro i _
    simp [h]
  simp only [State.hbmWriteRaw, State.hbmByte, this, List.foldl_nil]
  exact write_get s.hbm a l x

/-- Everything a raw write of HBM can change: the bytes, the bad lines and the exact cells. -/
theorem hbmWriteRaw_frame (s : State) (a : Nat) (l : List Byte) :
    s.hbmWriteRaw a l = { s with hbm := (s.hbmWriteRaw a l).hbm, bad := (s.hbmWriteRaw a l).bad,
                                 exact := (s.hbmWriteRaw a l).exact } := rfl

/-- A cell's exact value set: its bytes, and no other byte. -/
theorem setExact_byte (s : State) (a w : Nat) (v : Int) (x : Nat) (hx : x < a ∨ a + w ≤ x) :
    (s.setExact a w v).hbmByte x = s.hbmByte x := by
  simp only [State.setExact, State.hbmByte, Mem.writeLe]
  rw [write_get, leBytes_length, if_neg (by omega)]

theorem setExact_wf {s : State} (h : s.hbm.Wf) (a w : Nat) (v : Int) : (s.setExact a w v).hbm.Wf :=
  write_wf h a _

/-- What noting an uncorrected error can change: the stack's record and the interrupt it raises. -/
theorem noteUncorr_frame (s : State) (line : Nat) :
    s.noteUncorr line = { s with hbmStacks := (s.noteUncorr line).hbmStacks, dev := (s.noteUncorr line).dev,
                                 out := (s.noteUncorr line).out } := by
  simp only [State.noteUncorr]
  split
  · rfl
  · simp only [State.raise]
    split <;> rfl

/-- What an atomic can change: HBM, the exact cells, the stacks' records, the device's status and its outputs. -/
theorem atomic_frame (s : State) (a : Nat) (code : BitVec 3) (v : Int) :
    (s.atomic a code v).1 = { s with hbm := (s.atomic a code v).1.hbm, exact := (s.atomic a code v).1.exact,
                                     hbmStacks := (s.atomic a code v).1.hbmStacks, dev := (s.atomic a code v).1.dev,
                                     out := (s.atomic a code v).1.out } := by
  simp only [State.atomic]
  split
  · rw [noteUncorr_frame]
  · split <;> rfl

/-! ## SRAM -/

/-- A write of a clause's SRAM changes tiles alone. -/
theorem sramWrite_frame (s : State) (members : List Nat) (a : Nat) (l : List Byte) :
    s.sramWrite members a l = { s with tiles := (s.sramWrite members a l).tiles } := by
  simp only [State.sramWrite]
  generalize sramParts a l.length = parts
  induction parts generalizing s with
  | nil => rfl
  | cons p r ih =>
    rw [List.foldl_cons, ih]
    rfl

/-- A write of a clause's SRAM keeps how many tiles there are. -/
theorem sramWrite_length (s : State) (members : List Nat) (a : Nat) (l : List Byte) :
    (s.sramWrite members a l).tiles.length = s.tiles.length := by
  simp only [State.sramWrite]
  generalize sramParts a l.length = parts
  induction parts generalizing s with
  | nil => rfl
  | cons p r ih =>
    rw [List.foldl_cons, ih]
    simp [State.modTile]

end Sys2Proof.Machine
end

