-- ==== Sys2Proof/Laws/State.lean ====
section
/-! SUPPORT. What each named update of the state leaves: every field but the one it writes, and, of a tile, every other tile. -/
namespace Sys2Proof.Machine

/-! ## modTile -/

@[simp] theorem modTile_fuse (s : State) (t : Nat) (f : Tile → Tile) : (s.modTile t f).fuse = s.fuse := rfl
@[simp] theorem modTile_pwr (s : State) (t : Nat) (f : Tile → Tile) : (s.modTile t f).pwr = s.pwr := rfl
@[simp] theorem modTile_dev (s : State) (t : Nat) (f : Tile → Tile) : (s.modTile t f).dev = s.dev := rfl
@[simp] theorem modTile_queues (s : State) (t : Nat) (f : Tile → Tile) : (s.modTile t f).queues = s.queues := rfl
@[simp] theorem modTile_started (s : State) (t : Nat) (f : Tile → Tile) : (s.modTile t f).started = s.started := rfl
@[simp] theorem modTile_nextId (s : State) (t : Nat) (f : Tile → Tile) : (s.modTile t f).nextId = s.nextId := rfl
@[simp] theorem modTile_out (s : State) (t : Nat) (f : Tile → Tile) : (s.modTile t f).out = s.out := rfl
@[simp] theorem modTile_hbm (s : State) (t : Nat) (f : Tile → Tile) : (s.modTile t f).hbm = s.hbm := rfl
@[simp] theorem modTile_bad (s : State) (t : Nat) (f : Tile → Tile) : (s.modTile t f).bad = s.bad := rfl
@[simp] theorem modTile_exact (s : State) (t : Nat) (f : Tile → Tile) : (s.modTile t f).exact = s.exact := rfl
@[simp] theorem modTile_stacks (s : State) (t : Nat) (f : Tile → Tile) : (s.modTile t f).hbmStacks = s.hbmStacks := rfl
@[simp] theorem modTile_hbmResp (s : State) (t : Nat) (f : Tile → Tile) : (s.modTile t f).hbmResp = s.hbmResp := rfl
@[simp] theorem modTile_atoms (s : State) (t : Nat) (f : Tile → Tile) : (s.modTile t f).atoms = s.atoms := rfl
@[simp] theorem modTile_resps (s : State) (t : Nat) (f : Tile → Tile) : (s.modTile t f).resps = s.resps := rfl
@[simp] theorem modTile_nextReq (s : State) (t : Nat) (f : Tile → Tile) : (s.modTile t f).nextReq = s.nextReq := rfl
@[simp] theorem modTile_spins (s : State) (t : Nat) (f : Tile → Tile) : (s.modTile t f).spins = s.spins := rfl
@[simp] theorem modTile_weave (s : State) (t : Nat) (f : Tile → Tile) : (s.modTile t f).weave = s.weave := rfl
@[simp] theorem modTile_clauses (s : State) (t : Nat) (f : Tile → Tile) : (s.modTile t f).clauses = s.clauses := rfl
@[simp] theorem modTile_folds (s : State) (t : Nat) (f : Tile → Tile) : (s.modTile t f).folds = s.folds := rfl
@[simp] theorem modTile_hopW (s : State) (t : Nat) (f : Tile → Tile) : (s.modTile t f).hopW = s.hopW := rfl
@[simp] theorem modTile_hopE (s : State) (t : Nat) (f : Tile → Tile) : (s.modTile t f).hopE = s.hopE := rfl
@[simp] theorem modTile_draws (s : State) (t : Nat) (f : Tile → Tile) : (s.modTile t f).draws = s.draws := rfl
@[simp] theorem modTile_tksW (s : State) (t : Nat) (f : Tile → Tile) : (s.modTile t f).tksW = s.tksW := rfl
@[simp] theorem modTile_tksE (s : State) (t : Nat) (f : Tile → Tile) : (s.modTile t f).tksE = s.tksE := rfl
@[simp] theorem modTile_links (s : State) (t : Nat) (f : Tile → Tile) : (s.modTile t f).links = s.links := rfl
@[simp] theorem modTile_glkWake (s : State) (t : Nat) (f : Tile → Tile) : (s.modTile t f).glkWake = s.glkWake := rfl
@[simp] theorem modTile_sec (s : State) (t : Nat) (f : Tile → Tile) : (s.modTile t f).sec = s.sec := rfl
@[simp] theorem modTile_alm (s : State) (t : Nat) (f : Tile → Tile) : (s.modTile t f).alm = s.alm := rfl
@[simp] theorem modTile_gloss (s : State) (t : Nat) (f : Tile → Tile) : (s.modTile t f).gloss = s.gloss := rfl
@[simp] theorem modTile_trans (s : State) (t : Nat) (f : Tile → Tile) : (s.modTile t f).trans = s.trans := rfl
@[simp] theorem modTile_replay (s : State) (t : Nat) (f : Tile → Tile) : (s.modTile t f).replay = s.replay := rfl
@[simp] theorem modTile_mboxW (s : State) (t : Nat) (f : Tile → Tile) : (s.modTile t f).mboxW = s.mboxW := rfl
@[simp] theorem modTile_mboxE (s : State) (t : Nat) (f : Tile → Tile) : (s.modTile t f).mboxE = s.mboxE := rfl
@[simp] theorem modTile_plait (s : State) (t : Nat) (f : Tile → Tile) : (s.modTile t f).plait = s.plait := rfl
@[simp] theorem modTile_tap (s : State) (t : Nat) (f : Tile → Tile) : (s.modTile t f).tap = s.tap := rfl
@[simp] theorem modTile_tly (s : State) (t : Nat) (f : Tile → Tile) : (s.modTile t f).tly = s.tly := rfl
@[simp] theorem modTile_fw (s : State) (t : Nat) (f : Tile → Tile) : (s.modTile t f).fw = s.fw := rfl
@[simp] theorem modTile_timer (s : State) (t : Nat) (f : Tile → Tile) : (s.modTile t f).timer = s.timer := rfl
@[simp] theorem modTile_free (s : State) (t : Nat) (f : Tile → Tile) : (s.modTile t f).free = s.free := rfl
@[simp] theorem modTile_pending (s : State) (t : Nat) (f : Tile → Tile) : (s.modTile t f).pending = s.pending := rfl

/-! ## setPhrase -/

@[simp] theorem setPhrase_fuse (s : State) (t p : Nat) (ph : Option Phrase) : (s.setPhrase t p ph).fuse = s.fuse := rfl
@[simp] theorem setPhrase_pwr (s : State) (t p : Nat) (ph : Option Phrase) : (s.setPhrase t p ph).pwr = s.pwr := rfl
@[simp] theorem setPhrase_dev (s : State) (t p : Nat) (ph : Option Phrase) : (s.setPhrase t p ph).dev = s.dev := rfl
@[simp] theorem setPhrase_queues (s : State) (t p : Nat) (ph : Option Phrase) : (s.setPhrase t p ph).queues = s.queues := rfl
@[simp] theorem setPhrase_started (s : State) (t p : Nat) (ph : Option Phrase) : (s.setPhrase t p ph).started = s.started := rfl
@[simp] theorem setPhrase_nextId (s : State) (t p : Nat) (ph : Option Phrase) : (s.setPhrase t p ph).nextId = s.nextId := rfl
@[simp] theorem setPhrase_out (s : State) (t p : Nat) (ph : Option Phrase) : (s.setPhrase t p ph).out = s.out := rfl
@[simp] theorem setPhrase_hbm (s : State) (t p : Nat) (ph : Option Phrase) : (s.setPhrase t p ph).hbm = s.hbm := rfl
@[simp] theorem setPhrase_bad (s : State) (t p : Nat) (ph : Option Phrase) : (s.setPhrase t p ph).bad = s.bad := rfl
@[simp] theorem setPhrase_exact (s : State) (t p : Nat) (ph : Option Phrase) : (s.setPhrase t p ph).exact = s.exact := rfl
@[simp] theorem setPhrase_stacks (s : State) (t p : Nat) (ph : Option Phrase) : (s.setPhrase t p ph).hbmStacks = s.hbmStacks := rfl
@[simp] theorem setPhrase_hbmResp (s : State) (t p : Nat) (ph : Option Phrase) : (s.setPhrase t p ph).hbmResp = s.hbmResp := rfl
@[simp] theorem setPhrase_atoms (s : State) (t p : Nat) (ph : Option Phrase) : (s.setPhrase t p ph).atoms = s.atoms := rfl
@[simp] theorem setPhrase_resps (s : State) (t p : Nat) (ph : Option Phrase) : (s.setPhrase t p ph).resps = s.resps := rfl
@[simp] theorem setPhrase_nextReq (s : State) (t p : Nat) (ph : Option Phrase) : (s.setPhrase t p ph).nextReq = s.nextReq := rfl
@[simp] theorem setPhrase_spins (s : State) (t p : Nat) (ph : Option Phrase) : (s.setPhrase t p ph).spins = s.spins := rfl
@[simp] theorem setPhrase_weave (s : State) (t p : Nat) (ph : Option Phrase) : (s.setPhrase t p ph).weave = s.weave := rfl
@[simp] theorem setPhrase_clauses (s : State) (t p : Nat) (ph : Option Phrase) : (s.setPhrase t p ph).clauses = s.clauses := rfl
@[simp] theorem setPhrase_folds (s : State) (t p : Nat) (ph : Option Phrase) : (s.setPhrase t p ph).folds = s.folds := rfl
@[simp] theorem setPhrase_hopW (s : State) (t p : Nat) (ph : Option Phrase) : (s.setPhrase t p ph).hopW = s.hopW := rfl
@[simp] theorem setPhrase_hopE (s : State) (t p : Nat) (ph : Option Phrase) : (s.setPhrase t p ph).hopE = s.hopE := rfl
@[simp] theorem setPhrase_draws (s : State) (t p : Nat) (ph : Option Phrase) : (s.setPhrase t p ph).draws = s.draws := rfl
@[simp] theorem setPhrase_tksW (s : State) (t p : Nat) (ph : Option Phrase) : (s.setPhrase t p ph).tksW = s.tksW := rfl
@[simp] theorem setPhrase_tksE (s : State) (t p : Nat) (ph : Option Phrase) : (s.setPhrase t p ph).tksE = s.tksE := rfl
@[simp] theorem setPhrase_links (s : State) (t p : Nat) (ph : Option Phrase) : (s.setPhrase t p ph).links = s.links := rfl
@[simp] theorem setPhrase_glkWake (s : State) (t p : Nat) (ph : Option Phrase) : (s.setPhrase t p ph).glkWake = s.glkWake := rfl
@[simp] theorem setPhrase_sec (s : State) (t p : Nat) (ph : Option Phrase) : (s.setPhrase t p ph).sec = s.sec := rfl
@[simp] theorem setPhrase_alm (s : State) (t p : Nat) (ph : Option Phrase) : (s.setPhrase t p ph).alm = s.alm := rfl
@[simp] theorem setPhrase_gloss (s : State) (t p : Nat) (ph : Option Phrase) : (s.setPhrase t p ph).gloss = s.gloss := rfl
@[simp] theorem setPhrase_trans (s : State) (t p : Nat) (ph : Option Phrase) : (s.setPhrase t p ph).trans = s.trans := rfl
@[simp] theorem setPhrase_replay (s : State) (t p : Nat) (ph : Option Phrase) : (s.setPhrase t p ph).replay = s.replay := rfl
@[simp] theorem setPhrase_mboxW (s : State) (t p : Nat) (ph : Option Phrase) : (s.setPhrase t p ph).mboxW = s.mboxW := rfl
@[simp] theorem setPhrase_mboxE (s : State) (t p : Nat) (ph : Option Phrase) : (s.setPhrase t p ph).mboxE = s.mboxE := rfl
@[simp] theorem setPhrase_plait (s : State) (t p : Nat) (ph : Option Phrase) : (s.setPhrase t p ph).plait = s.plait := rfl
@[simp] theorem setPhrase_tap (s : State) (t p : Nat) (ph : Option Phrase) : (s.setPhrase t p ph).tap = s.tap := rfl
@[simp] theorem setPhrase_tly (s : State) (t p : Nat) (ph : Option Phrase) : (s.setPhrase t p ph).tly = s.tly := rfl
@[simp] theorem setPhrase_fw (s : State) (t p : Nat) (ph : Option Phrase) : (s.setPhrase t p ph).fw = s.fw := rfl
@[simp] theorem setPhrase_timer (s : State) (t p : Nat) (ph : Option Phrase) : (s.setPhrase t p ph).timer = s.timer := rfl
@[simp] theorem setPhrase_free (s : State) (t p : Nat) (ph : Option Phrase) : (s.setPhrase t p ph).free = s.free := rfl
@[simp] theorem setPhrase_pending (s : State) (t p : Nat) (ph : Option Phrase) : (s.setPhrase t p ph).pending = s.pending := rfl

/-! ## tally -/

@[simp] theorem tally_fuse (s : State) (t ev n : Nat) : (s.tally t ev n).fuse = s.fuse := rfl
@[simp] theorem tally_pwr (s : State) (t ev n : Nat) : (s.tally t ev n).pwr = s.pwr := rfl
@[simp] theorem tally_dev (s : State) (t ev n : Nat) : (s.tally t ev n).dev = s.dev := rfl
@[simp] theorem tally_queues (s : State) (t ev n : Nat) : (s.tally t ev n).queues = s.queues := rfl
@[simp] theorem tally_started (s : State) (t ev n : Nat) : (s.tally t ev n).started = s.started := rfl
@[simp] theorem tally_nextId (s : State) (t ev n : Nat) : (s.tally t ev n).nextId = s.nextId := rfl
@[simp] theorem tally_out (s : State) (t ev n : Nat) : (s.tally t ev n).out = s.out := rfl
@[simp] theorem tally_hbm (s : State) (t ev n : Nat) : (s.tally t ev n).hbm = s.hbm := rfl
@[simp] theorem tally_bad (s : State) (t ev n : Nat) : (s.tally t ev n).bad = s.bad := rfl
@[simp] theorem tally_exact (s : State) (t ev n : Nat) : (s.tally t ev n).exact = s.exact := rfl
@[simp] theorem tally_stacks (s : State) (t ev n : Nat) : (s.tally t ev n).hbmStacks = s.hbmStacks := rfl
@[simp] theorem tally_hbmResp (s : State) (t ev n : Nat) : (s.tally t ev n).hbmResp = s.hbmResp := rfl
@[simp] theorem tally_atoms (s : State) (t ev n : Nat) : (s.tally t ev n).atoms = s.atoms := rfl
@[simp] theorem tally_resps (s : State) (t ev n : Nat) : (s.tally t ev n).resps = s.resps := rfl
@[simp] theorem tally_nextReq (s : State) (t ev n : Nat) : (s.tally t ev n).nextReq = s.nextReq := rfl
@[simp] theorem tally_spins (s : State) (t ev n : Nat) : (s.tally t ev n).spins = s.spins := rfl
@[simp] theorem tally_weave (s : State) (t ev n : Nat) : (s.tally t ev n).weave = s.weave := rfl
@[simp] theorem tally_clauses (s : State) (t ev n : Nat) : (s.tally t ev n).clauses = s.clauses := rfl
@[simp] theorem tally_folds (s : State) (t ev n : Nat) : (s.tally t ev n).folds = s.folds := rfl
@[simp] theorem tally_hopW (s : State) (t ev n : Nat) : (s.tally t ev n).hopW = s.hopW := rfl
@[simp] theorem tally_hopE (s : State) (t ev n : Nat) : (s.tally t ev n).hopE = s.hopE := rfl
@[simp] theorem tally_draws (s : State) (t ev n : Nat) : (s.tally t ev n).draws = s.draws := rfl
@[simp] theorem tally_tksW (s : State) (t ev n : Nat) : (s.tally t ev n).tksW = s.tksW := rfl
@[simp] theorem tally_tksE (s : State) (t ev n : Nat) : (s.tally t ev n).tksE = s.tksE := rfl
@[simp] theorem tally_links (s : State) (t ev n : Nat) : (s.tally t ev n).links = s.links := rfl
@[simp] theorem tally_glkWake (s : State) (t ev n : Nat) : (s.tally t ev n).glkWake = s.glkWake := rfl
@[simp] theorem tally_sec (s : State) (t ev n : Nat) : (s.tally t ev n).sec = s.sec := rfl
@[simp] theorem tally_alm (s : State) (t ev n : Nat) : (s.tally t ev n).alm = s.alm := rfl
@[simp] theorem tally_gloss (s : State) (t ev n : Nat) : (s.tally t ev n).gloss = s.gloss := rfl
@[simp] theorem tally_trans (s : State) (t ev n : Nat) : (s.tally t ev n).trans = s.trans := rfl
@[simp] theorem tally_replay (s : State) (t ev n : Nat) : (s.tally t ev n).replay = s.replay := rfl
@[simp] theorem tally_mboxW (s : State) (t ev n : Nat) : (s.tally t ev n).mboxW = s.mboxW := rfl
@[simp] theorem tally_mboxE (s : State) (t ev n : Nat) : (s.tally t ev n).mboxE = s.mboxE := rfl
@[simp] theorem tally_plait (s : State) (t ev n : Nat) : (s.tally t ev n).plait = s.plait := rfl
@[simp] theorem tally_tap (s : State) (t ev n : Nat) : (s.tally t ev n).tap = s.tap := rfl
@[simp] theorem tally_tly (s : State) (t ev n : Nat) : (s.tally t ev n).tly = s.tly := rfl
@[simp] theorem tally_fw (s : State) (t ev n : Nat) : (s.tally t ev n).fw = s.fw := rfl
@[simp] theorem tally_timer (s : State) (t ev n : Nat) : (s.tally t ev n).timer = s.timer := rfl
@[simp] theorem tally_free (s : State) (t ev n : Nat) : (s.tally t ev n).free = s.free := rfl
@[simp] theorem tally_pending (s : State) (t ev n : Nat) : (s.tally t ev n).pending = s.pending := rfl

/-! ## modOs -/

@[simp] theorem modOs_fuse (s : State) (t : Nat) (f : Osier → Osier) : (s.modOs t f).fuse = s.fuse := rfl
@[simp] theorem modOs_pwr (s : State) (t : Nat) (f : Osier → Osier) : (s.modOs t f).pwr = s.pwr := rfl
@[simp] theorem modOs_dev (s : State) (t : Nat) (f : Osier → Osier) : (s.modOs t f).dev = s.dev := rfl
@[simp] theorem modOs_queues (s : State) (t : Nat) (f : Osier → Osier) : (s.modOs t f).queues = s.queues := rfl
@[simp] theorem modOs_started (s : State) (t : Nat) (f : Osier → Osier) : (s.modOs t f).started = s.started := rfl
@[simp] theorem modOs_nextId (s : State) (t : Nat) (f : Osier → Osier) : (s.modOs t f).nextId = s.nextId := rfl
@[simp] theorem modOs_out (s : State) (t : Nat) (f : Osier → Osier) : (s.modOs t f).out = s.out := rfl
@[simp] theorem modOs_hbm (s : State) (t : Nat) (f : Osier → Osier) : (s.modOs t f).hbm = s.hbm := rfl
@[simp] theorem modOs_bad (s : State) (t : Nat) (f : Osier → Osier) : (s.modOs t f).bad = s.bad := rfl
@[simp] theorem modOs_exact (s : State) (t : Nat) (f : Osier → Osier) : (s.modOs t f).exact = s.exact := rfl
@[simp] theorem modOs_stacks (s : State) (t : Nat) (f : Osier → Osier) : (s.modOs t f).hbmStacks = s.hbmStacks := rfl
@[simp] theorem modOs_hbmResp (s : State) (t : Nat) (f : Osier → Osier) : (s.modOs t f).hbmResp = s.hbmResp := rfl
@[simp] theorem modOs_atoms (s : State) (t : Nat) (f : Osier → Osier) : (s.modOs t f).atoms = s.atoms := rfl
@[simp] theorem modOs_resps (s : State) (t : Nat) (f : Osier → Osier) : (s.modOs t f).resps = s.resps := rfl
@[simp] theorem modOs_nextReq (s : State) (t : Nat) (f : Osier → Osier) : (s.modOs t f).nextReq = s.nextReq := rfl
@[simp] theorem modOs_spins (s : State) (t : Nat) (f : Osier → Osier) : (s.modOs t f).spins = s.spins := rfl
@[simp] theorem modOs_weave (s : State) (t : Nat) (f : Osier → Osier) : (s.modOs t f).weave = s.weave := rfl
@[simp] theorem modOs_clauses (s : State) (t : Nat) (f : Osier → Osier) : (s.modOs t f).clauses = s.clauses := rfl
@[simp] theorem modOs_folds (s : State) (t : Nat) (f : Osier → Osier) : (s.modOs t f).folds = s.folds := rfl
@[simp] theorem modOs_hopW (s : State) (t : Nat) (f : Osier → Osier) : (s.modOs t f).hopW = s.hopW := rfl
@[simp] theorem modOs_hopE (s : State) (t : Nat) (f : Osier → Osier) : (s.modOs t f).hopE = s.hopE := rfl
@[simp] theorem modOs_draws (s : State) (t : Nat) (f : Osier → Osier) : (s.modOs t f).draws = s.draws := rfl
@[simp] theorem modOs_tksW (s : State) (t : Nat) (f : Osier → Osier) : (s.modOs t f).tksW = s.tksW := rfl
@[simp] theorem modOs_tksE (s : State) (t : Nat) (f : Osier → Osier) : (s.modOs t f).tksE = s.tksE := rfl
@[simp] theorem modOs_links (s : State) (t : Nat) (f : Osier → Osier) : (s.modOs t f).links = s.links := rfl
@[simp] theorem modOs_glkWake (s : State) (t : Nat) (f : Osier → Osier) : (s.modOs t f).glkWake = s.glkWake := rfl
@[simp] theorem modOs_sec (s : State) (t : Nat) (f : Osier → Osier) : (s.modOs t f).sec = s.sec := rfl
@[simp] theorem modOs_alm (s : State) (t : Nat) (f : Osier → Osier) : (s.modOs t f).alm = s.alm := rfl
@[simp] theorem modOs_gloss (s : State) (t : Nat) (f : Osier → Osier) : (s.modOs t f).gloss = s.gloss := rfl
@[simp] theorem modOs_trans (s : State) (t : Nat) (f : Osier → Osier) : (s.modOs t f).trans = s.trans := rfl
@[simp] theorem modOs_replay (s : State) (t : Nat) (f : Osier → Osier) : (s.modOs t f).replay = s.replay := rfl
@[simp] theorem modOs_mboxW (s : State) (t : Nat) (f : Osier → Osier) : (s.modOs t f).mboxW = s.mboxW := rfl
@[simp] theorem modOs_mboxE (s : State) (t : Nat) (f : Osier → Osier) : (s.modOs t f).mboxE = s.mboxE := rfl
@[simp] theorem modOs_plait (s : State) (t : Nat) (f : Osier → Osier) : (s.modOs t f).plait = s.plait := rfl
@[simp] theorem modOs_tap (s : State) (t : Nat) (f : Osier → Osier) : (s.modOs t f).tap = s.tap := rfl
@[simp] theorem modOs_tly (s : State) (t : Nat) (f : Osier → Osier) : (s.modOs t f).tly = s.tly := rfl
@[simp] theorem modOs_fw (s : State) (t : Nat) (f : Osier → Osier) : (s.modOs t f).fw = s.fw := rfl
@[simp] theorem modOs_timer (s : State) (t : Nat) (f : Osier → Osier) : (s.modOs t f).timer = s.timer := rfl
@[simp] theorem modOs_free (s : State) (t : Nat) (f : Osier → Osier) : (s.modOs t f).free = s.free := rfl
@[simp] theorem modOs_pending (s : State) (t : Nat) (f : Osier → Osier) : (s.modOs t f).pending = s.pending := rfl

/-! ## modArray -/

@[simp] theorem modArray_fuse (s : State) (t : Nat) (f : ArrayU → ArrayU) : (s.modArray t f).fuse = s.fuse := rfl
@[simp] theorem modArray_pwr (s : State) (t : Nat) (f : ArrayU → ArrayU) : (s.modArray t f).pwr = s.pwr := rfl
@[simp] theorem modArray_dev (s : State) (t : Nat) (f : ArrayU → ArrayU) : (s.modArray t f).dev = s.dev := rfl
@[simp] theorem modArray_queues (s : State) (t : Nat) (f : ArrayU → ArrayU) : (s.modArray t f).queues = s.queues := rfl
@[simp] theorem modArray_started (s : State) (t : Nat) (f : ArrayU → ArrayU) : (s.modArray t f).started = s.started := rfl
@[simp] theorem modArray_nextId (s : State) (t : Nat) (f : ArrayU → ArrayU) : (s.modArray t f).nextId = s.nextId := rfl
@[simp] theorem modArray_out (s : State) (t : Nat) (f : ArrayU → ArrayU) : (s.modArray t f).out = s.out := rfl
@[simp] theorem modArray_hbm (s : State) (t : Nat) (f : ArrayU → ArrayU) : (s.modArray t f).hbm = s.hbm := rfl
@[simp] theorem modArray_bad (s : State) (t : Nat) (f : ArrayU → ArrayU) : (s.modArray t f).bad = s.bad := rfl
@[simp] theorem modArray_exact (s : State) (t : Nat) (f : ArrayU → ArrayU) : (s.modArray t f).exact = s.exact := rfl
@[simp] theorem modArray_stacks (s : State) (t : Nat) (f : ArrayU → ArrayU) : (s.modArray t f).hbmStacks = s.hbmStacks := rfl
@[simp] theorem modArray_hbmResp (s : State) (t : Nat) (f : ArrayU → ArrayU) : (s.modArray t f).hbmResp = s.hbmResp := rfl
@[simp] theorem modArray_atoms (s : State) (t : Nat) (f : ArrayU → ArrayU) : (s.modArray t f).atoms = s.atoms := rfl
@[simp] theorem modArray_resps (s : State) (t : Nat) (f : ArrayU → ArrayU) : (s.modArray t f).resps = s.resps := rfl
@[simp] theorem modArray_nextReq (s : State) (t : Nat) (f : ArrayU → ArrayU) : (s.modArray t f).nextReq = s.nextReq := rfl
@[simp] theorem modArray_spins (s : State) (t : Nat) (f : ArrayU → ArrayU) : (s.modArray t f).spins = s.spins := rfl
@[simp] theorem modArray_weave (s : State) (t : Nat) (f : ArrayU → ArrayU) : (s.modArray t f).weave = s.weave := rfl
@[simp] theorem modArray_clauses (s : State) (t : Nat) (f : ArrayU → ArrayU) : (s.modArray t f).clauses = s.clauses := rfl
@[simp] theorem modArray_folds (s : State) (t : Nat) (f : ArrayU → ArrayU) : (s.modArray t f).folds = s.folds := rfl
@[simp] theorem modArray_hopW (s : State) (t : Nat) (f : ArrayU → ArrayU) : (s.modArray t f).hopW = s.hopW := rfl
@[simp] theorem modArray_hopE (s : State) (t : Nat) (f : ArrayU → ArrayU) : (s.modArray t f).hopE = s.hopE := rfl
@[simp] theorem modArray_draws (s : State) (t : Nat) (f : ArrayU → ArrayU) : (s.modArray t f).draws = s.draws := rfl
@[simp] theorem modArray_tksW (s : State) (t : Nat) (f : ArrayU → ArrayU) : (s.modArray t f).tksW = s.tksW := rfl
@[simp] theorem modArray_tksE (s : State) (t : Nat) (f : ArrayU → ArrayU) : (s.modArray t f).tksE = s.tksE := rfl
@[simp] theorem modArray_links (s : State) (t : Nat) (f : ArrayU → ArrayU) : (s.modArray t f).links = s.links := rfl
@[simp] theorem modArray_glkWake (s : State) (t : Nat) (f : ArrayU → ArrayU) : (s.modArray t f).glkWake = s.glkWake := rfl
@[simp] theorem modArray_sec (s : State) (t : Nat) (f : ArrayU → ArrayU) : (s.modArray t f).sec = s.sec := rfl
@[simp] theorem modArray_alm (s : State) (t : Nat) (f : ArrayU → ArrayU) : (s.modArray t f).alm = s.alm := rfl
@[simp] theorem modArray_gloss (s : State) (t : Nat) (f : ArrayU → ArrayU) : (s.modArray t f).gloss = s.gloss := rfl
@[simp] theorem modArray_trans (s : State) (t : Nat) (f : ArrayU → ArrayU) : (s.modArray t f).trans = s.trans := rfl
@[simp] theorem modArray_replay (s : State) (t : Nat) (f : ArrayU → ArrayU) : (s.modArray t f).replay = s.replay := rfl
@[simp] theorem modArray_mboxW (s : State) (t : Nat) (f : ArrayU → ArrayU) : (s.modArray t f).mboxW = s.mboxW := rfl
@[simp] theorem modArray_mboxE (s : State) (t : Nat) (f : ArrayU → ArrayU) : (s.modArray t f).mboxE = s.mboxE := rfl
@[simp] theorem modArray_plait (s : State) (t : Nat) (f : ArrayU → ArrayU) : (s.modArray t f).plait = s.plait := rfl
@[simp] theorem modArray_tap (s : State) (t : Nat) (f : ArrayU → ArrayU) : (s.modArray t f).tap = s.tap := rfl
@[simp] theorem modArray_tly (s : State) (t : Nat) (f : ArrayU → ArrayU) : (s.modArray t f).tly = s.tly := rfl
@[simp] theorem modArray_fw (s : State) (t : Nat) (f : ArrayU → ArrayU) : (s.modArray t f).fw = s.fw := rfl
@[simp] theorem modArray_timer (s : State) (t : Nat) (f : ArrayU → ArrayU) : (s.modArray t f).timer = s.timer := rfl
@[simp] theorem modArray_free (s : State) (t : Nat) (f : ArrayU → ArrayU) : (s.modArray t f).free = s.free := rfl
@[simp] theorem modArray_pending (s : State) (t : Nat) (f : ArrayU → ArrayU) : (s.modArray t f).pending = s.pending := rfl

/-! ## modCal -/

@[simp] theorem modCal_fuse (s : State) (t : Nat) (f : Calib → Calib) : (s.modCal t f).fuse = s.fuse := rfl
@[simp] theorem modCal_pwr (s : State) (t : Nat) (f : Calib → Calib) : (s.modCal t f).pwr = s.pwr := rfl
@[simp] theorem modCal_dev (s : State) (t : Nat) (f : Calib → Calib) : (s.modCal t f).dev = s.dev := rfl
@[simp] theorem modCal_queues (s : State) (t : Nat) (f : Calib → Calib) : (s.modCal t f).queues = s.queues := rfl
@[simp] theorem modCal_started (s : State) (t : Nat) (f : Calib → Calib) : (s.modCal t f).started = s.started := rfl
@[simp] theorem modCal_nextId (s : State) (t : Nat) (f : Calib → Calib) : (s.modCal t f).nextId = s.nextId := rfl
@[simp] theorem modCal_out (s : State) (t : Nat) (f : Calib → Calib) : (s.modCal t f).out = s.out := rfl
@[simp] theorem modCal_hbm (s : State) (t : Nat) (f : Calib → Calib) : (s.modCal t f).hbm = s.hbm := rfl
@[simp] theorem modCal_bad (s : State) (t : Nat) (f : Calib → Calib) : (s.modCal t f).bad = s.bad := rfl
@[simp] theorem modCal_exact (s : State) (t : Nat) (f : Calib → Calib) : (s.modCal t f).exact = s.exact := rfl
@[simp] theorem modCal_stacks (s : State) (t : Nat) (f : Calib → Calib) : (s.modCal t f).hbmStacks = s.hbmStacks := rfl
@[simp] theorem modCal_hbmResp (s : State) (t : Nat) (f : Calib → Calib) : (s.modCal t f).hbmResp = s.hbmResp := rfl
@[simp] theorem modCal_atoms (s : State) (t : Nat) (f : Calib → Calib) : (s.modCal t f).atoms = s.atoms := rfl
@[simp] theorem modCal_resps (s : State) (t : Nat) (f : Calib → Calib) : (s.modCal t f).resps = s.resps := rfl
@[simp] theorem modCal_nextReq (s : State) (t : Nat) (f : Calib → Calib) : (s.modCal t f).nextReq = s.nextReq := rfl
@[simp] theorem modCal_spins (s : State) (t : Nat) (f : Calib → Calib) : (s.modCal t f).spins = s.spins := rfl
@[simp] theorem modCal_weave (s : State) (t : Nat) (f : Calib → Calib) : (s.modCal t f).weave = s.weave := rfl
@[simp] theorem modCal_clauses (s : State) (t : Nat) (f : Calib → Calib) : (s.modCal t f).clauses = s.clauses := rfl
@[simp] theorem modCal_folds (s : State) (t : Nat) (f : Calib → Calib) : (s.modCal t f).folds = s.folds := rfl
@[simp] theorem modCal_hopW (s : State) (t : Nat) (f : Calib → Calib) : (s.modCal t f).hopW = s.hopW := rfl
@[simp] theorem modCal_hopE (s : State) (t : Nat) (f : Calib → Calib) : (s.modCal t f).hopE = s.hopE := rfl
@[simp] theorem modCal_draws (s : State) (t : Nat) (f : Calib → Calib) : (s.modCal t f).draws = s.draws := rfl
@[simp] theorem modCal_tksW (s : State) (t : Nat) (f : Calib → Calib) : (s.modCal t f).tksW = s.tksW := rfl
@[simp] theorem modCal_tksE (s : State) (t : Nat) (f : Calib → Calib) : (s.modCal t f).tksE = s.tksE := rfl
@[simp] theorem modCal_links (s : State) (t : Nat) (f : Calib → Calib) : (s.modCal t f).links = s.links := rfl
@[simp] theorem modCal_glkWake (s : State) (t : Nat) (f : Calib → Calib) : (s.modCal t f).glkWake = s.glkWake := rfl
@[simp] theorem modCal_sec (s : State) (t : Nat) (f : Calib → Calib) : (s.modCal t f).sec = s.sec := rfl
@[simp] theorem modCal_alm (s : State) (t : Nat) (f : Calib → Calib) : (s.modCal t f).alm = s.alm := rfl
@[simp] theorem modCal_gloss (s : State) (t : Nat) (f : Calib → Calib) : (s.modCal t f).gloss = s.gloss := rfl
@[simp] theorem modCal_trans (s : State) (t : Nat) (f : Calib → Calib) : (s.modCal t f).trans = s.trans := rfl
@[simp] theorem modCal_replay (s : State) (t : Nat) (f : Calib → Calib) : (s.modCal t f).replay = s.replay := rfl
@[simp] theorem modCal_mboxW (s : State) (t : Nat) (f : Calib → Calib) : (s.modCal t f).mboxW = s.mboxW := rfl
@[simp] theorem modCal_mboxE (s : State) (t : Nat) (f : Calib → Calib) : (s.modCal t f).mboxE = s.mboxE := rfl
@[simp] theorem modCal_plait (s : State) (t : Nat) (f : Calib → Calib) : (s.modCal t f).plait = s.plait := rfl
@[simp] theorem modCal_tap (s : State) (t : Nat) (f : Calib → Calib) : (s.modCal t f).tap = s.tap := rfl
@[simp] theorem modCal_tly (s : State) (t : Nat) (f : Calib → Calib) : (s.modCal t f).tly = s.tly := rfl
@[simp] theorem modCal_fw (s : State) (t : Nat) (f : Calib → Calib) : (s.modCal t f).fw = s.fw := rfl
@[simp] theorem modCal_timer (s : State) (t : Nat) (f : Calib → Calib) : (s.modCal t f).timer = s.timer := rfl
@[simp] theorem modCal_free (s : State) (t : Nat) (f : Calib → Calib) : (s.modCal t f).free = s.free := rfl
@[simp] theorem modCal_pending (s : State) (t : Nat) (f : Calib → Calib) : (s.modCal t f).pending = s.pending := rfl

/-! ## modClause -/

@[simp] theorem modClause_fuse (s : State) (c : Nat) (f : ClauseSt → ClauseSt) : (s.modClause c f).fuse = s.fuse := rfl
@[simp] theorem modClause_pwr (s : State) (c : Nat) (f : ClauseSt → ClauseSt) : (s.modClause c f).pwr = s.pwr := rfl
@[simp] theorem modClause_dev (s : State) (c : Nat) (f : ClauseSt → ClauseSt) : (s.modClause c f).dev = s.dev := rfl
@[simp] theorem modClause_queues (s : State) (c : Nat) (f : ClauseSt → ClauseSt) : (s.modClause c f).queues = s.queues := rfl
@[simp] theorem modClause_started (s : State) (c : Nat) (f : ClauseSt → ClauseSt) : (s.modClause c f).started = s.started := rfl
@[simp] theorem modClause_nextId (s : State) (c : Nat) (f : ClauseSt → ClauseSt) : (s.modClause c f).nextId = s.nextId := rfl
@[simp] theorem modClause_out (s : State) (c : Nat) (f : ClauseSt → ClauseSt) : (s.modClause c f).out = s.out := rfl
@[simp] theorem modClause_hbm (s : State) (c : Nat) (f : ClauseSt → ClauseSt) : (s.modClause c f).hbm = s.hbm := rfl
@[simp] theorem modClause_bad (s : State) (c : Nat) (f : ClauseSt → ClauseSt) : (s.modClause c f).bad = s.bad := rfl
@[simp] theorem modClause_exact (s : State) (c : Nat) (f : ClauseSt → ClauseSt) : (s.modClause c f).exact = s.exact := rfl
@[simp] theorem modClause_stacks (s : State) (c : Nat) (f : ClauseSt → ClauseSt) : (s.modClause c f).hbmStacks = s.hbmStacks := rfl
@[simp] theorem modClause_hbmResp (s : State) (c : Nat) (f : ClauseSt → ClauseSt) : (s.modClause c f).hbmResp = s.hbmResp := rfl
@[simp] theorem modClause_atoms (s : State) (c : Nat) (f : ClauseSt → ClauseSt) : (s.modClause c f).atoms = s.atoms := rfl
@[simp] theorem modClause_resps (s : State) (c : Nat) (f : ClauseSt → ClauseSt) : (s.modClause c f).resps = s.resps := rfl
@[simp] theorem modClause_nextReq (s : State) (c : Nat) (f : ClauseSt → ClauseSt) : (s.modClause c f).nextReq = s.nextReq := rfl
@[simp] theorem modClause_spins (s : State) (c : Nat) (f : ClauseSt → ClauseSt) : (s.modClause c f).spins = s.spins := rfl
@[simp] theorem modClause_weave (s : State) (c : Nat) (f : ClauseSt → ClauseSt) : (s.modClause c f).weave = s.weave := rfl
@[simp] theorem modClause_tiles (s : State) (c : Nat) (f : ClauseSt → ClauseSt) : (s.modClause c f).tiles = s.tiles := rfl
@[simp] theorem modClause_folds (s : State) (c : Nat) (f : ClauseSt → ClauseSt) : (s.modClause c f).folds = s.folds := rfl
@[simp] theorem modClause_hopW (s : State) (c : Nat) (f : ClauseSt → ClauseSt) : (s.modClause c f).hopW = s.hopW := rfl
@[simp] theorem modClause_hopE (s : State) (c : Nat) (f : ClauseSt → ClauseSt) : (s.modClause c f).hopE = s.hopE := rfl
@[simp] theorem modClause_draws (s : State) (c : Nat) (f : ClauseSt → ClauseSt) : (s.modClause c f).draws = s.draws := rfl
@[simp] theorem modClause_tksW (s : State) (c : Nat) (f : ClauseSt → ClauseSt) : (s.modClause c f).tksW = s.tksW := rfl
@[simp] theorem modClause_tksE (s : State) (c : Nat) (f : ClauseSt → ClauseSt) : (s.modClause c f).tksE = s.tksE := rfl
@[simp] theorem modClause_links (s : State) (c : Nat) (f : ClauseSt → ClauseSt) : (s.modClause c f).links = s.links := rfl
@[simp] theorem modClause_glkWake (s : State) (c : Nat) (f : ClauseSt → ClauseSt) : (s.modClause c f).glkWake = s.glkWake := rfl
@[simp] theorem modClause_sec (s : State) (c : Nat) (f : ClauseSt → ClauseSt) : (s.modClause c f).sec = s.sec := rfl
@[simp] theorem modClause_alm (s : State) (c : Nat) (f : ClauseSt → ClauseSt) : (s.modClause c f).alm = s.alm := rfl
@[simp] theorem modClause_gloss (s : State) (c : Nat) (f : ClauseSt → ClauseSt) : (s.modClause c f).gloss = s.gloss := rfl
@[simp] theorem modClause_trans (s : State) (c : Nat) (f : ClauseSt → ClauseSt) : (s.modClause c f).trans = s.trans := rfl
@[simp] theorem modClause_replay (s : State) (c : Nat) (f : ClauseSt → ClauseSt) : (s.modClause c f).replay = s.replay := rfl
@[simp] theorem modClause_mboxW (s : State) (c : Nat) (f : ClauseSt → ClauseSt) : (s.modClause c f).mboxW = s.mboxW := rfl
@[simp] theorem modClause_mboxE (s : State) (c : Nat) (f : ClauseSt → ClauseSt) : (s.modClause c f).mboxE = s.mboxE := rfl
@[simp] theorem modClause_plait (s : State) (c : Nat) (f : ClauseSt → ClauseSt) : (s.modClause c f).plait = s.plait := rfl
@[simp] theorem modClause_tap (s : State) (c : Nat) (f : ClauseSt → ClauseSt) : (s.modClause c f).tap = s.tap := rfl
@[simp] theorem modClause_tly (s : State) (c : Nat) (f : ClauseSt → ClauseSt) : (s.modClause c f).tly = s.tly := rfl
@[simp] theorem modClause_fw (s : State) (c : Nat) (f : ClauseSt → ClauseSt) : (s.modClause c f).fw = s.fw := rfl
@[simp] theorem modClause_timer (s : State) (c : Nat) (f : ClauseSt → ClauseSt) : (s.modClause c f).timer = s.timer := rfl
@[simp] theorem modClause_free (s : State) (c : Nat) (f : ClauseSt → ClauseSt) : (s.modClause c f).free = s.free := rfl
@[simp] theorem modClause_pending (s : State) (c : Nat) (f : ClauseSt → ClauseSt) : (s.modClause c f).pending = s.pending := rfl

/-! ## emit -/

@[simp] theorem emit_fuse (s : State) (o : Output) : (s.emit o).fuse = s.fuse := rfl
@[simp] theorem emit_pwr (s : State) (o : Output) : (s.emit o).pwr = s.pwr := rfl
@[simp] theorem emit_dev (s : State) (o : Output) : (s.emit o).dev = s.dev := rfl
@[simp] theorem emit_queues (s : State) (o : Output) : (s.emit o).queues = s.queues := rfl
@[simp] theorem emit_started (s : State) (o : Output) : (s.emit o).started = s.started := rfl
@[simp] theorem emit_nextId (s : State) (o : Output) : (s.emit o).nextId = s.nextId := rfl
@[simp] theorem emit_hbm (s : State) (o : Output) : (s.emit o).hbm = s.hbm := rfl
@[simp] theorem emit_bad (s : State) (o : Output) : (s.emit o).bad = s.bad := rfl
@[simp] theorem emit_exact (s : State) (o : Output) : (s.emit o).exact = s.exact := rfl
@[simp] theorem emit_stacks (s : State) (o : Output) : (s.emit o).hbmStacks = s.hbmStacks := rfl
@[simp] theorem emit_hbmResp (s : State) (o : Output) : (s.emit o).hbmResp = s.hbmResp := rfl
@[simp] theorem emit_atoms (s : State) (o : Output) : (s.emit o).atoms = s.atoms := rfl
@[simp] theorem emit_resps (s : State) (o : Output) : (s.emit o).resps = s.resps := rfl
@[simp] theorem emit_nextReq (s : State) (o : Output) : (s.emit o).nextReq = s.nextReq := rfl
@[simp] theorem emit_spins (s : State) (o : Output) : (s.emit o).spins = s.spins := rfl
@[simp] theorem emit_weave (s : State) (o : Output) : (s.emit o).weave = s.weave := rfl
@[simp] theorem emit_clauses (s : State) (o : Output) : (s.emit o).clauses = s.clauses := rfl
@[simp] theorem emit_tiles (s : State) (o : Output) : (s.emit o).tiles = s.tiles := rfl
@[simp] theorem emit_folds (s : State) (o : Output) : (s.emit o).folds = s.folds := rfl
@[simp] theorem emit_hopW (s : State) (o : Output) : (s.emit o).hopW = s.hopW := rfl
@[simp] theorem emit_hopE (s : State) (o : Output) : (s.emit o).hopE = s.hopE := rfl
@[simp] theorem emit_draws (s : State) (o : Output) : (s.emit o).draws = s.draws := rfl
@[simp] theorem emit_tksW (s : State) (o : Output) : (s.emit o).tksW = s.tksW := rfl
@[simp] theorem emit_tksE (s : State) (o : Output) : (s.emit o).tksE = s.tksE := rfl
@[simp] theorem emit_links (s : State) (o : Output) : (s.emit o).links = s.links := rfl
@[simp] theorem emit_glkWake (s : State) (o : Output) : (s.emit o).glkWake = s.glkWake := rfl
@[simp] theorem emit_sec (s : State) (o : Output) : (s.emit o).sec = s.sec := rfl
@[simp] theorem emit_alm (s : State) (o : Output) : (s.emit o).alm = s.alm := rfl
@[simp] theorem emit_gloss (s : State) (o : Output) : (s.emit o).gloss = s.gloss := rfl
@[simp] theorem emit_trans (s : State) (o : Output) : (s.emit o).trans = s.trans := rfl
@[simp] theorem emit_replay (s : State) (o : Output) : (s.emit o).replay = s.replay := rfl
@[simp] theorem emit_mboxW (s : State) (o : Output) : (s.emit o).mboxW = s.mboxW := rfl
@[simp] theorem emit_mboxE (s : State) (o : Output) : (s.emit o).mboxE = s.mboxE := rfl
@[simp] theorem emit_plait (s : State) (o : Output) : (s.emit o).plait = s.plait := rfl
@[simp] theorem emit_tap (s : State) (o : Output) : (s.emit o).tap = s.tap := rfl
@[simp] theorem emit_tly (s : State) (o : Output) : (s.emit o).tly = s.tly := rfl
@[simp] theorem emit_fw (s : State) (o : Output) : (s.emit o).fw = s.fw := rfl
@[simp] theorem emit_timer (s : State) (o : Output) : (s.emit o).timer = s.timer := rfl
@[simp] theorem emit_free (s : State) (o : Output) : (s.emit o).free = s.free := rfl
@[simp] theorem emit_pending (s : State) (o : Output) : (s.emit o).pending = s.pending := rfl

/-! ## modStack -/

@[simp] theorem modStack_fuse (s : State) (i : Nat) (f : Stack → Stack) : (s.modStack i f).fuse = s.fuse := rfl
@[simp] theorem modStack_pwr (s : State) (i : Nat) (f : Stack → Stack) : (s.modStack i f).pwr = s.pwr := rfl
@[simp] theorem modStack_dev (s : State) (i : Nat) (f : Stack → Stack) : (s.modStack i f).dev = s.dev := rfl
@[simp] theorem modStack_queues (s : State) (i : Nat) (f : Stack → Stack) : (s.modStack i f).queues = s.queues := rfl
@[simp] theorem modStack_started (s : State) (i : Nat) (f : Stack → Stack) : (s.modStack i f).started = s.started := rfl
@[simp] theorem modStack_nextId (s : State) (i : Nat) (f : Stack → Stack) : (s.modStack i f).nextId = s.nextId := rfl
@[simp] theorem modStack_out (s : State) (i : Nat) (f : Stack → Stack) : (s.modStack i f).out = s.out := rfl
@[simp] theorem modStack_hbm (s : State) (i : Nat) (f : Stack → Stack) : (s.modStack i f).hbm = s.hbm := rfl
@[simp] theorem modStack_bad (s : State) (i : Nat) (f : Stack → Stack) : (s.modStack i f).bad = s.bad := rfl
@[simp] theorem modStack_exact (s : State) (i : Nat) (f : Stack → Stack) : (s.modStack i f).exact = s.exact := rfl
@[simp] theorem modStack_hbmResp (s : State) (i : Nat) (f : Stack → Stack) : (s.modStack i f).hbmResp = s.hbmResp := rfl
@[simp] theorem modStack_atoms (s : State) (i : Nat) (f : Stack → Stack) : (s.modStack i f).atoms = s.atoms := rfl
@[simp] theorem modStack_resps (s : State) (i : Nat) (f : Stack → Stack) : (s.modStack i f).resps = s.resps := rfl
@[simp] theorem modStack_nextReq (s : State) (i : Nat) (f : Stack → Stack) : (s.modStack i f).nextReq = s.nextReq := rfl
@[simp] theorem modStack_spins (s : State) (i : Nat) (f : Stack → Stack) : (s.modStack i f).spins = s.spins := rfl
@[simp] theorem modStack_weave (s : State) (i : Nat) (f : Stack → Stack) : (s.modStack i f).weave = s.weave := rfl
@[simp] theorem modStack_clauses (s : State) (i : Nat) (f : Stack → Stack) : (s.modStack i f).clauses = s.clauses := rfl
@[simp] theorem modStack_tiles (s : State) (i : Nat) (f : Stack → Stack) : (s.modStack i f).tiles = s.tiles := rfl
@[simp] theorem modStack_folds (s : State) (i : Nat) (f : Stack → Stack) : (s.modStack i f).folds = s.folds := rfl
@[simp] theorem modStack_hopW (s : State) (i : Nat) (f : Stack → Stack) : (s.modStack i f).hopW = s.hopW := rfl
@[simp] theorem modStack_hopE (s : State) (i : Nat) (f : Stack → Stack) : (s.modStack i f).hopE = s.hopE := rfl
@[simp] theorem modStack_draws (s : State) (i : Nat) (f : Stack → Stack) : (s.modStack i f).draws = s.draws := rfl
@[simp] theorem modStack_tksW (s : State) (i : Nat) (f : Stack → Stack) : (s.modStack i f).tksW = s.tksW := rfl
@[simp] theorem modStack_tksE (s : State) (i : Nat) (f : Stack → Stack) : (s.modStack i f).tksE = s.tksE := rfl
@[simp] theorem modStack_links (s : State) (i : Nat) (f : Stack → Stack) : (s.modStack i f).links = s.links := rfl
@[simp] theorem modStack_glkWake (s : State) (i : Nat) (f : Stack → Stack) : (s.modStack i f).glkWake = s.glkWake := rfl
@[simp] theorem modStack_sec (s : State) (i : Nat) (f : Stack → Stack) : (s.modStack i f).sec = s.sec := rfl
@[simp] theorem modStack_alm (s : State) (i : Nat) (f : Stack → Stack) : (s.modStack i f).alm = s.alm := rfl
@[simp] theorem modStack_gloss (s : State) (i : Nat) (f : Stack → Stack) : (s.modStack i f).gloss = s.gloss := rfl
@[simp] theorem modStack_trans (s : State) (i : Nat) (f : Stack → Stack) : (s.modStack i f).trans = s.trans := rfl
@[simp] theorem modStack_replay (s : State) (i : Nat) (f : Stack → Stack) : (s.modStack i f).replay = s.replay := rfl
@[simp] theorem modStack_mboxW (s : State) (i : Nat) (f : Stack → Stack) : (s.modStack i f).mboxW = s.mboxW := rfl
@[simp] theorem modStack_mboxE (s : State) (i : Nat) (f : Stack → Stack) : (s.modStack i f).mboxE = s.mboxE := rfl
@[simp] theorem modStack_plait (s : State) (i : Nat) (f : Stack → Stack) : (s.modStack i f).plait = s.plait := rfl
@[simp] theorem modStack_tap (s : State) (i : Nat) (f : Stack → Stack) : (s.modStack i f).tap = s.tap := rfl
@[simp] theorem modStack_tly (s : State) (i : Nat) (f : Stack → Stack) : (s.modStack i f).tly = s.tly := rfl
@[simp] theorem modStack_fw (s : State) (i : Nat) (f : Stack → Stack) : (s.modStack i f).fw = s.fw := rfl
@[simp] theorem modStack_timer (s : State) (i : Nat) (f : Stack → Stack) : (s.modStack i f).timer = s.timer := rfl
@[simp] theorem modStack_free (s : State) (i : Nat) (f : Stack → Stack) : (s.modStack i f).free = s.free := rfl
@[simp] theorem modStack_pending (s : State) (i : Nat) (f : Stack → Stack) : (s.modStack i f).pending = s.pending := rfl

/-! ## modCmd -/

@[simp] theorem modCmd_fuse (s : State) (id : Nat) (f : Started → Started) : (s.modCmd id f).fuse = s.fuse := rfl
@[simp] theorem modCmd_pwr (s : State) (id : Nat) (f : Started → Started) : (s.modCmd id f).pwr = s.pwr := rfl
@[simp] theorem modCmd_dev (s : State) (id : Nat) (f : Started → Started) : (s.modCmd id f).dev = s.dev := rfl
@[simp] theorem modCmd_queues (s : State) (id : Nat) (f : Started → Started) : (s.modCmd id f).queues = s.queues := rfl
@[simp] theorem modCmd_nextId (s : State) (id : Nat) (f : Started → Started) : (s.modCmd id f).nextId = s.nextId := rfl
@[simp] theorem modCmd_out (s : State) (id : Nat) (f : Started → Started) : (s.modCmd id f).out = s.out := rfl
@[simp] theorem modCmd_hbm (s : State) (id : Nat) (f : Started → Started) : (s.modCmd id f).hbm = s.hbm := rfl
@[simp] theorem modCmd_bad (s : State) (id : Nat) (f : Started → Started) : (s.modCmd id f).bad = s.bad := rfl
@[simp] theorem modCmd_exact (s : State) (id : Nat) (f : Started → Started) : (s.modCmd id f).exact = s.exact := rfl
@[simp] theorem modCmd_stacks (s : State) (id : Nat) (f : Started → Started) : (s.modCmd id f).hbmStacks = s.hbmStacks := rfl
@[simp] theorem modCmd_hbmResp (s : State) (id : Nat) (f : Started → Started) : (s.modCmd id f).hbmResp = s.hbmResp := rfl
@[simp] theorem modCmd_atoms (s : State) (id : Nat) (f : Started → Started) : (s.modCmd id f).atoms = s.atoms := rfl
@[simp] theorem modCmd_resps (s : State) (id : Nat) (f : Started → Started) : (s.modCmd id f).resps = s.resps := rfl
@[simp] theorem modCmd_nextReq (s : State) (id : Nat) (f : Started → Started) : (s.modCmd id f).nextReq = s.nextReq := rfl
@[simp] theorem modCmd_spins (s : State) (id : Nat) (f : Started → Started) : (s.modCmd id f).spins = s.spins := rfl
@[simp] theorem modCmd_weave (s : State) (id : Nat) (f : Started → Started) : (s.modCmd id f).weave = s.weave := rfl
@[simp] theorem modCmd_clauses (s : State) (id : Nat) (f : Started → Started) : (s.modCmd id f).clauses = s.clauses := rfl
@[simp] theorem modCmd_tiles (s : State) (id : Nat) (f : Started → Started) : (s.modCmd id f).tiles = s.tiles := rfl
@[simp] theorem modCmd_folds (s : State) (id : Nat) (f : Started → Started) : (s.modCmd id f).folds = s.folds := rfl
@[simp] theorem modCmd_hopW (s : State) (id : Nat) (f : Started → Started) : (s.modCmd id f).hopW = s.hopW := rfl
@[simp] theorem modCmd_hopE (s : State) (id : Nat) (f : Started → Started) : (s.modCmd id f).hopE = s.hopE := rfl
@[simp] theorem modCmd_draws (s : State) (id : Nat) (f : Started → Started) : (s.modCmd id f).draws = s.draws := rfl
@[simp] theorem modCmd_tksW (s : State) (id : Nat) (f : Started → Started) : (s.modCmd id f).tksW = s.tksW := rfl
@[simp] theorem modCmd_tksE (s : State) (id : Nat) (f : Started → Started) : (s.modCmd id f).tksE = s.tksE := rfl
@[simp] theorem modCmd_links (s : State) (id : Nat) (f : Started → Started) : (s.modCmd id f).links = s.links := rfl
@[simp] theorem modCmd_glkWake (s : State) (id : Nat) (f : Started → Started) : (s.modCmd id f).glkWake = s.glkWake := rfl
@[simp] theorem modCmd_sec (s : State) (id : Nat) (f : Started → Started) : (s.modCmd id f).sec = s.sec := rfl
@[simp] theorem modCmd_alm (s : State) (id : Nat) (f : Started → Started) : (s.modCmd id f).alm = s.alm := rfl
@[simp] theorem modCmd_gloss (s : State) (id : Nat) (f : Started → Started) : (s.modCmd id f).gloss = s.gloss := rfl
@[simp] theorem modCmd_trans (s : State) (id : Nat) (f : Started → Started) : (s.modCmd id f).trans = s.trans := rfl
@[simp] theorem modCmd_replay (s : State) (id : Nat) (f : Started → Started) : (s.modCmd id f).replay = s.replay := rfl
@[simp] theorem modCmd_mboxW (s : State) (id : Nat) (f : Started → Started) : (s.modCmd id f).mboxW = s.mboxW := rfl
@[simp] theorem modCmd_mboxE (s : State) (id : Nat) (f : Started → Started) : (s.modCmd id f).mboxE = s.mboxE := rfl
@[simp] theorem modCmd_plait (s : State) (id : Nat) (f : Started → Started) : (s.modCmd id f).plait = s.plait := rfl
@[simp] theorem modCmd_tap (s : State) (id : Nat) (f : Started → Started) : (s.modCmd id f).tap = s.tap := rfl
@[simp] theorem modCmd_tly (s : State) (id : Nat) (f : Started → Started) : (s.modCmd id f).tly = s.tly := rfl
@[simp] theorem modCmd_fw (s : State) (id : Nat) (f : Started → Started) : (s.modCmd id f).fw = s.fw := rfl
@[simp] theorem modCmd_timer (s : State) (id : Nat) (f : Started → Started) : (s.modCmd id f).timer = s.timer := rfl
@[simp] theorem modCmd_free (s : State) (id : Nat) (f : Started → Started) : (s.modCmd id f).free = s.free := rfl
@[simp] theorem modCmd_pending (s : State) (id : Nat) (f : Started → Started) : (s.modCmd id f).pending = s.pending := rfl

/-! ## finish -/

@[simp] theorem finish_fuse (s : State) (id status d0 d1 d2 : Nat) : (s.finish id status d0 d1 d2).fuse = s.fuse := rfl
@[simp] theorem finish_pwr (s : State) (id status d0 d1 d2 : Nat) : (s.finish id status d0 d1 d2).pwr = s.pwr := rfl
@[simp] theorem finish_dev (s : State) (id status d0 d1 d2 : Nat) : (s.finish id status d0 d1 d2).dev = s.dev := rfl
@[simp] theorem finish_queues (s : State) (id status d0 d1 d2 : Nat) : (s.finish id status d0 d1 d2).queues = s.queues := rfl
@[simp] theorem finish_nextId (s : State) (id status d0 d1 d2 : Nat) : (s.finish id status d0 d1 d2).nextId = s.nextId := rfl
@[simp] theorem finish_out (s : State) (id status d0 d1 d2 : Nat) : (s.finish id status d0 d1 d2).out = s.out := rfl
@[simp] theorem finish_hbm (s : State) (id status d0 d1 d2 : Nat) : (s.finish id status d0 d1 d2).hbm = s.hbm := rfl
@[simp] theorem finish_bad (s : State) (id status d0 d1 d2 : Nat) : (s.finish id status d0 d1 d2).bad = s.bad := rfl
@[simp] theorem finish_exact (s : State) (id status d0 d1 d2 : Nat) : (s.finish id status d0 d1 d2).exact = s.exact := rfl
@[simp] theorem finish_stacks (s : State) (id status d0 d1 d2 : Nat) : (s.finish id status d0 d1 d2).hbmStacks = s.hbmStacks := rfl
@[simp] theorem finish_hbmResp (s : State) (id status d0 d1 d2 : Nat) : (s.finish id status d0 d1 d2).hbmResp = s.hbmResp := rfl
@[simp] theorem finish_atoms (s : State) (id status d0 d1 d2 : Nat) : (s.finish id status d0 d1 d2).atoms = s.atoms := rfl
@[simp] theorem finish_resps (s : State) (id status d0 d1 d2 : Nat) : (s.finish id status d0 d1 d2).resps = s.resps := rfl
@[simp] theorem finish_nextReq (s : State) (id status d0 d1 d2 : Nat) : (s.finish id status d0 d1 d2).nextReq = s.nextReq := rfl
@[simp] theorem finish_spins (s : State) (id status d0 d1 d2 : Nat) : (s.finish id status d0 d1 d2).spins = s.spins := rfl
@[simp] theorem finish_weave (s : State) (id status d0 d1 d2 : Nat) : (s.finish id status d0 d1 d2).weave = s.weave := rfl
@[simp] theorem finish_clauses (s : State) (id status d0 d1 d2 : Nat) : (s.finish id status d0 d1 d2).clauses = s.clauses := rfl
@[simp] theorem finish_tiles (s : State) (id status d0 d1 d2 : Nat) : (s.finish id status d0 d1 d2).tiles = s.tiles := rfl
@[simp] theorem finish_folds (s : State) (id status d0 d1 d2 : Nat) : (s.finish id status d0 d1 d2).folds = s.folds := rfl
@[simp] theorem finish_hopW (s : State) (id status d0 d1 d2 : Nat) : (s.finish id status d0 d1 d2).hopW = s.hopW := rfl
@[simp] theorem finish_hopE (s : State) (id status d0 d1 d2 : Nat) : (s.finish id status d0 d1 d2).hopE = s.hopE := rfl
@[simp] theorem finish_draws (s : State) (id status d0 d1 d2 : Nat) : (s.finish id status d0 d1 d2).draws = s.draws := rfl
@[simp] theorem finish_tksW (s : State) (id status d0 d1 d2 : Nat) : (s.finish id status d0 d1 d2).tksW = s.tksW := rfl
@[simp] theorem finish_tksE (s : State) (id status d0 d1 d2 : Nat) : (s.finish id status d0 d1 d2).tksE = s.tksE := rfl
@[simp] theorem finish_links (s : State) (id status d0 d1 d2 : Nat) : (s.finish id status d0 d1 d2).links = s.links := rfl
@[simp] theorem finish_glkWake (s : State) (id status d0 d1 d2 : Nat) : (s.finish id status d0 d1 d2).glkWake = s.glkWake := rfl
@[simp] theorem finish_sec (s : State) (id status d0 d1 d2 : Nat) : (s.finish id status d0 d1 d2).sec = s.sec := rfl
@[simp] theorem finish_alm (s : State) (id status d0 d1 d2 : Nat) : (s.finish id status d0 d1 d2).alm = s.alm := rfl
@[simp] theorem finish_gloss (s : State) (id status d0 d1 d2 : Nat) : (s.finish id status d0 d1 d2).gloss = s.gloss := rfl
@[simp] theorem finish_trans (s : State) (id status d0 d1 d2 : Nat) : (s.finish id status d0 d1 d2).trans = s.trans := rfl
@[simp] theorem finish_replay (s : State) (id status d0 d1 d2 : Nat) : (s.finish id status d0 d1 d2).replay = s.replay := rfl
@[simp] theorem finish_mboxW (s : State) (id status d0 d1 d2 : Nat) : (s.finish id status d0 d1 d2).mboxW = s.mboxW := rfl
@[simp] theorem finish_mboxE (s : State) (id status d0 d1 d2 : Nat) : (s.finish id status d0 d1 d2).mboxE = s.mboxE := rfl
@[simp] theorem finish_plait (s : State) (id status d0 d1 d2 : Nat) : (s.finish id status d0 d1 d2).plait = s.plait := rfl
@[simp] theorem finish_tap (s : State) (id status d0 d1 d2 : Nat) : (s.finish id status d0 d1 d2).tap = s.tap := rfl
@[simp] theorem finish_tly (s : State) (id status d0 d1 d2 : Nat) : (s.finish id status d0 d1 d2).tly = s.tly := rfl
@[simp] theorem finish_fw (s : State) (id status d0 d1 d2 : Nat) : (s.finish id status d0 d1 d2).fw = s.fw := rfl
@[simp] theorem finish_timer (s : State) (id status d0 d1 d2 : Nat) : (s.finish id status d0 d1 d2).timer = s.timer := rfl
@[simp] theorem finish_free (s : State) (id status d0 d1 d2 : Nat) : (s.finish id status d0 d1 d2).free = s.free := rfl
@[simp] theorem finish_pending (s : State) (id status d0 d1 d2 : Nat) : (s.finish id status d0 d1 d2).pending = s.pending := rfl

/-! ## modQueue -/

@[simp] theorem modQueue_fuse (s : State) (q : Nat) (f : Queue → Queue) : (s.modQueue q f).fuse = s.fuse := rfl
@[simp] theorem modQueue_pwr (s : State) (q : Nat) (f : Queue → Queue) : (s.modQueue q f).pwr = s.pwr := rfl
@[simp] theorem modQueue_dev (s : State) (q : Nat) (f : Queue → Queue) : (s.modQueue q f).dev = s.dev := rfl
@[simp] theorem modQueue_started (s : State) (q : Nat) (f : Queue → Queue) : (s.modQueue q f).started = s.started := rfl
@[simp] theorem modQueue_nextId (s : State) (q : Nat) (f : Queue → Queue) : (s.modQueue q f).nextId = s.nextId := rfl
@[simp] theorem modQueue_out (s : State) (q : Nat) (f : Queue → Queue) : (s.modQueue q f).out = s.out := rfl
@[simp] theorem modQueue_hbm (s : State) (q : Nat) (f : Queue → Queue) : (s.modQueue q f).hbm = s.hbm := rfl
@[simp] theorem modQueue_bad (s : State) (q : Nat) (f : Queue → Queue) : (s.modQueue q f).bad = s.bad := rfl
@[simp] theorem modQueue_exact (s : State) (q : Nat) (f : Queue → Queue) : (s.modQueue q f).exact = s.exact := rfl
@[simp] theorem modQueue_stacks (s : State) (q : Nat) (f : Queue → Queue) : (s.modQueue q f).hbmStacks = s.hbmStacks := rfl
@[simp] theorem modQueue_hbmResp (s : State) (q : Nat) (f : Queue → Queue) : (s.modQueue q f).hbmResp = s.hbmResp := rfl
@[simp] theorem modQueue_atoms (s : State) (q : Nat) (f : Queue → Queue) : (s.modQueue q f).atoms = s.atoms := rfl
@[simp] theorem modQueue_resps (s : State) (q : Nat) (f : Queue → Queue) : (s.modQueue q f).resps = s.resps := rfl
@[simp] theorem modQueue_nextReq (s : State) (q : Nat) (f : Queue → Queue) : (s.modQueue q f).nextReq = s.nextReq := rfl
@[simp] theorem modQueue_spins (s : State) (q : Nat) (f : Queue → Queue) : (s.modQueue q f).spins = s.spins := rfl
@[simp] theorem modQueue_weave (s : State) (q : Nat) (f : Queue → Queue) : (s.modQueue q f).weave = s.weave := rfl
@[simp] theorem modQueue_clauses (s : State) (q : Nat) (f : Queue → Queue) : (s.modQueue q f).clauses = s.clauses := rfl
@[simp] theorem modQueue_tiles (s : State) (q : Nat) (f : Queue → Queue) : (s.modQueue q f).tiles = s.tiles := rfl
@[simp] theorem modQueue_folds (s : State) (q : Nat) (f : Queue → Queue) : (s.modQueue q f).folds = s.folds := rfl
@[simp] theorem modQueue_hopW (s : State) (q : Nat) (f : Queue → Queue) : (s.modQueue q f).hopW = s.hopW := rfl
@[simp] theorem modQueue_hopE (s : State) (q : Nat) (f : Queue → Queue) : (s.modQueue q f).hopE = s.hopE := rfl
@[simp] theorem modQueue_draws (s : State) (q : Nat) (f : Queue → Queue) : (s.modQueue q f).draws = s.draws := rfl
@[simp] theorem modQueue_tksW (s : State) (q : Nat) (f : Queue → Queue) : (s.modQueue q f).tksW = s.tksW := rfl
@[simp] theorem modQueue_tksE (s : State) (q : Nat) (f : Queue → Queue) : (s.modQueue q f).tksE = s.tksE := rfl
@[simp] theorem modQueue_links (s : State) (q : Nat) (f : Queue → Queue) : (s.modQueue q f).links = s.links := rfl
@[simp] theorem modQueue_glkWake (s : State) (q : Nat) (f : Queue → Queue) : (s.modQueue q f).glkWake = s.glkWake := rfl
@[simp] theorem modQueue_sec (s : State) (q : Nat) (f : Queue → Queue) : (s.modQueue q f).sec = s.sec := rfl
@[simp] theorem modQueue_alm (s : State) (q : Nat) (f : Queue → Queue) : (s.modQueue q f).alm = s.alm := rfl
@[simp] theorem modQueue_gloss (s : State) (q : Nat) (f : Queue → Queue) : (s.modQueue q f).gloss = s.gloss := rfl
@[simp] theorem modQueue_trans (s : State) (q : Nat) (f : Queue → Queue) : (s.modQueue q f).trans = s.trans := rfl
@[simp] theorem modQueue_replay (s : State) (q : Nat) (f : Queue → Queue) : (s.modQueue q f).replay = s.replay := rfl
@[simp] theorem modQueue_mboxW (s : State) (q : Nat) (f : Queue → Queue) : (s.modQueue q f).mboxW = s.mboxW := rfl
@[simp] theorem modQueue_mboxE (s : State) (q : Nat) (f : Queue → Queue) : (s.modQueue q f).mboxE = s.mboxE := rfl
@[simp] theorem modQueue_plait (s : State) (q : Nat) (f : Queue → Queue) : (s.modQueue q f).plait = s.plait := rfl
@[simp] theorem modQueue_tap (s : State) (q : Nat) (f : Queue → Queue) : (s.modQueue q f).tap = s.tap := rfl
@[simp] theorem modQueue_tly (s : State) (q : Nat) (f : Queue → Queue) : (s.modQueue q f).tly = s.tly := rfl
@[simp] theorem modQueue_fw (s : State) (q : Nat) (f : Queue → Queue) : (s.modQueue q f).fw = s.fw := rfl
@[simp] theorem modQueue_timer (s : State) (q : Nat) (f : Queue → Queue) : (s.modQueue q f).timer = s.timer := rfl
@[simp] theorem modQueue_free (s : State) (q : Nat) (f : Queue → Queue) : (s.modQueue q f).free = s.free := rfl
@[simp] theorem modQueue_pending (s : State) (q : Nat) (f : Queue → Queue) : (s.modQueue q f).pending = s.pending := rfl

/-! ## modLink -/

@[simp] theorem modLink_fuse (s : State) (n : Nat) (f : Link → Link) : (s.modLink n f).fuse = s.fuse := rfl
@[simp] theorem modLink_pwr (s : State) (n : Nat) (f : Link → Link) : (s.modLink n f).pwr = s.pwr := rfl
@[simp] theorem modLink_dev (s : State) (n : Nat) (f : Link → Link) : (s.modLink n f).dev = s.dev := rfl
@[simp] theorem modLink_queues (s : State) (n : Nat) (f : Link → Link) : (s.modLink n f).queues = s.queues := rfl
@[simp] theorem modLink_started (s : State) (n : Nat) (f : Link → Link) : (s.modLink n f).started = s.started := rfl
@[simp] theorem modLink_nextId (s : State) (n : Nat) (f : Link → Link) : (s.modLink n f).nextId = s.nextId := rfl
@[simp] theorem modLink_out (s : State) (n : Nat) (f : Link → Link) : (s.modLink n f).out = s.out := rfl
@[simp] theorem modLink_hbm (s : State) (n : Nat) (f : Link → Link) : (s.modLink n f).hbm = s.hbm := rfl
@[simp] theorem modLink_bad (s : State) (n : Nat) (f : Link → Link) : (s.modLink n f).bad = s.bad := rfl
@[simp] theorem modLink_exact (s : State) (n : Nat) (f : Link → Link) : (s.modLink n f).exact = s.exact := rfl
@[simp] theorem modLink_stacks (s : State) (n : Nat) (f : Link → Link) : (s.modLink n f).hbmStacks = s.hbmStacks := rfl
@[simp] theorem modLink_hbmResp (s : State) (n : Nat) (f : Link → Link) : (s.modLink n f).hbmResp = s.hbmResp := rfl
@[simp] theorem modLink_atoms (s : State) (n : Nat) (f : Link → Link) : (s.modLink n f).atoms = s.atoms := rfl
@[simp] theorem modLink_resps (s : State) (n : Nat) (f : Link → Link) : (s.modLink n f).resps = s.resps := rfl
@[simp] theorem modLink_nextReq (s : State) (n : Nat) (f : Link → Link) : (s.modLink n f).nextReq = s.nextReq := rfl
@[simp] theorem modLink_spins (s : State) (n : Nat) (f : Link → Link) : (s.modLink n f).spins = s.spins := rfl
@[simp] theorem modLink_weave (s : State) (n : Nat) (f : Link → Link) : (s.modLink n f).weave = s.weave := rfl
@[simp] theorem modLink_clauses (s : State) (n : Nat) (f : Link → Link) : (s.modLink n f).clauses = s.clauses := rfl
@[simp] theorem modLink_tiles (s : State) (n : Nat) (f : Link → Link) : (s.modLink n f).tiles = s.tiles := rfl
@[simp] theorem modLink_folds (s : State) (n : Nat) (f : Link → Link) : (s.modLink n f).folds = s.folds := rfl
@[simp] theorem modLink_hopW (s : State) (n : Nat) (f : Link → Link) : (s.modLink n f).hopW = s.hopW := rfl
@[simp] theorem modLink_hopE (s : State) (n : Nat) (f : Link → Link) : (s.modLink n f).hopE = s.hopE := rfl
@[simp] theorem modLink_draws (s : State) (n : Nat) (f : Link → Link) : (s.modLink n f).draws = s.draws := rfl
@[simp] theorem modLink_tksW (s : State) (n : Nat) (f : Link → Link) : (s.modLink n f).tksW = s.tksW := rfl
@[simp] theorem modLink_tksE (s : State) (n : Nat) (f : Link → Link) : (s.modLink n f).tksE = s.tksE := rfl
@[simp] theorem modLink_glkWake (s : State) (n : Nat) (f : Link → Link) : (s.modLink n f).glkWake = s.glkWake := rfl
@[simp] theorem modLink_sec (s : State) (n : Nat) (f : Link → Link) : (s.modLink n f).sec = s.sec := rfl
@[simp] theorem modLink_alm (s : State) (n : Nat) (f : Link → Link) : (s.modLink n f).alm = s.alm := rfl
@[simp] theorem modLink_gloss (s : State) (n : Nat) (f : Link → Link) : (s.modLink n f).gloss = s.gloss := rfl
@[simp] theorem modLink_trans (s : State) (n : Nat) (f : Link → Link) : (s.modLink n f).trans = s.trans := rfl
@[simp] theorem modLink_replay (s : State) (n : Nat) (f : Link → Link) : (s.modLink n f).replay = s.replay := rfl
@[simp] theorem modLink_mboxW (s : State) (n : Nat) (f : Link → Link) : (s.modLink n f).mboxW = s.mboxW := rfl
@[simp] theorem modLink_mboxE (s : State) (n : Nat) (f : Link → Link) : (s.modLink n f).mboxE = s.mboxE := rfl
@[simp] theorem modLink_plait (s : State) (n : Nat) (f : Link → Link) : (s.modLink n f).plait = s.plait := rfl
@[simp] theorem modLink_tap (s : State) (n : Nat) (f : Link → Link) : (s.modLink n f).tap = s.tap := rfl
@[simp] theorem modLink_tly (s : State) (n : Nat) (f : Link → Link) : (s.modLink n f).tly = s.tly := rfl
@[simp] theorem modLink_fw (s : State) (n : Nat) (f : Link → Link) : (s.modLink n f).fw = s.fw := rfl
@[simp] theorem modLink_timer (s : State) (n : Nat) (f : Link → Link) : (s.modLink n f).timer = s.timer := rfl
@[simp] theorem modLink_free (s : State) (n : Nat) (f : Link → Link) : (s.modLink n f).free = s.free := rfl
@[simp] theorem modLink_pending (s : State) (n : Nat) (f : Link → Link) : (s.modLink n f).pending = s.pending := rfl

/-! ## Tiles -/

@[simp] theorem modTile_tiles_length (s : State) (t : Nat) (f : Tile → Tile) : (s.modTile t f).tiles.length = s.tiles.length := by
  simp [State.modTile]

theorem tile_modTile_self (s : State) (t : Nat) (f : Tile → Tile) (h : t < s.tiles.length) :
    (s.modTile t f).tile t = f (s.tile t) := by
  simp [State.modTile, State.tile, List.getD_eq_getElem?_getD, h]

theorem tile_modTile_ne (s : State) (t u : Nat) (f : Tile → Tile) (h : u ≠ t) : (s.modTile t f).tile u = s.tile u := by
  simp [State.modTile, State.tile, List.getD_eq_getElem?_getD, Ne.symm h]

@[simp] theorem tally_tiles_length (s : State) (t ev n : Nat) : (s.tally t ev n).tiles.length = s.tiles.length := by
  simp [State.tally]

@[simp] theorem setPhrase_tiles_length (s : State) (t p : Nat) (ph : Option Phrase) :
    (s.setPhrase t p ph).tiles.length = s.tiles.length := by
  simp [State.setPhrase]

/-- A tile on which counts have been added differs in its counters only. -/
theorem Tile.tally_eq (cfg : TallyCfg) (ev n : Nat) (T : Tile) : ∃ l, T.tally cfg ev n = { T with cnt := l } := by
  unfold Tile.tally
  split
  · exact ⟨_, rfl⟩
  · exact ⟨_, rfl⟩

theorem tile_tally_ne (s : State) (t u ev n : Nat) (h : u ≠ t) : (s.tally t ev n).tile u = s.tile u :=
  tile_modTile_ne s t u _ h

/-- What a count leaves of its own tile. -/
theorem tile_tally_self (s : State) (t ev n : Nat) : ∃ l, (s.tally t ev n).tile t = { s.tile t with cnt := l } := by
  by_cases h : t < s.tiles.length
  · obtain ⟨l, hl⟩ := Tile.tally_eq s.tly.cfg ev n (s.tile t)
    exact ⟨l, by rw [State.tally, tile_modTile_self s t _ h, hl]⟩
  · refine ⟨(s.tile t).cnt, ?_⟩
    simp [State.tally, State.modTile, State.tile, List.getD_eq_getElem?_getD, h]

end Sys2Proof.Machine
end

