-- ==== Sys2Proof/Laws/Ops.lean ====
section
/-! SUPPORT. What each shared operation can do, said once: interrupts, faults, completions and the walk through a command's record. -/
namespace Sys2Proof.Machine

/-- Raising a bit sets it, sends vector 0 at an unmasked rise, and changes nothing else. -/
theorem raise_eq (s : State) (bit : Nat) :
    s.raise bit = { s with
      dev := { s.dev with irqStat := s.dev.irqStat ||| (1 <<< bit) }
      out := if !s.dev.irqStat.getLsbD bit && s.dev.irqMask.getLsbD bit then s.out ++ [.msix 0] else s.out } := by
  simp only [State.raise, State.emit]
  split <;> rfl

/-- What a fault can change: tiles and clauses. -/
theorem fault_frame (s : State) (t p pc cause : Nat) (detail : BitVec 32) (addr : BitVec 64) :
    s.fault t p pc cause detail addr = { s with tiles := (s.fault t p pc cause detail addr).tiles
                                                clauses := (s.fault t p pc cause detail addr).clauses } := by
  simp only [State.fault]
  split <;> rfl

/-- Noting a saturation changes clauses alone. -/
theorem noteSat_frame (s : State) (c cause : Nat) : s.noteSat c cause = { s with clauses := (s.noteSat c cause).clauses } := rfl

/-- Writing HBM changes the bytes, the bad lines and the exact cells alone. -/
theorem hbmWrite_frame (s : State) (a : Nat) (l : List Byte) :
    (s.hbmWrite a l).1 = { s with hbm := (s.hbmWrite a l).1.hbm, bad := (s.hbmWrite a l).1.bad,
                                  exact := (s.hbmWrite a l).1.exact } := by
  simp only [State.hbmWrite]
  split
  · rfl
  · split
    · rfl
    · split <;> rfl

theorem noteUncorrs_frame (l : List Nat) : ∀ s : State,
    l.foldl State.noteUncorr s = { s with hbmStacks := (l.foldl State.noteUncorr s).hbmStacks, dev := (l.foldl State.noteUncorr s).dev,
                                          out := (l.foldl State.noteUncorr s).out } := by
  induction l with
  | nil => exact fun _ => rfl
  | cons a r ih =>
    intro s
    rw [List.foldl_cons, ih, noteUncorr_frame]

/-- Reading HBM changes no byte: the stacks' records, the device's status and its outputs alone. -/
theorem hbmRead_frame (s : State) (a n : Nat) :
    (s.hbmRead a n).2.1 = { s with hbmStacks := (s.hbmRead a n).2.1.hbmStacks, dev := (s.hbmRead a n).2.1.dev,
                                   out := (s.hbmRead a n).2.1.out } := by
  simp only [State.hbmRead]
  exact noteUncorrs_frame _ s

/-- A command that waits under its opcode is what its handler gets. -/
theorem withCmd_takes {s : State} {id op : Nat} {c : Started} (h : Takes s id op c) (f : Started → State) :
    s.withCmd id op f = f c := by
  obtain ⟨⟨h1, h2, h3⟩, h4, h5⟩ := h
  simp [State.withCmd, h1, h2, h3, h4, h5]

/-- A sequencer instruction that cannot issue leaves the state. -/
theorem issue_none {op : BitVec 8} {u : Use} {t p : Nat} {f : Fields} {body : Ctx → Res} {s : State}
    (h : s.issuable t p op f = none) : issue op u t p f body s = .next s := by
  simp [issue, h]

/-! ## Checks on two paths, and key-store entries (R456, R484) -/

/-- Paths that disagree touch the security and alarm blocks alone. -/
theorem disagree_frame (s : State) (c : Check) :
    s.disagree c = { s with sec := (s.disagree c).sec, alm := (s.disagree c).alm } := by
  simp only [State.disagree]
  split <;> rfl

/-- Where the paths agree a check is its one test. -/
theorem twice_agrees {s : State} {c : Check} (ok : Bool) (h : s.agrees c = true) : s.twice c ok = (ok, s) := by
  simp [State.twice, State.disagree, h]

/-- Where they do not it fails, and one authentication failure more counts. -/
theorem twice_disagrees {s : State} {c : Check} (ok : Bool) (h : s.agrees c = false) :
    s.twice c ok = (false, { s with sec := { s.sec with upset := s.sec.upset.erase c }
                                    alm := { s.alm with authRun := s.alm.authRun + 1 } }) := by
  simp [State.twice, State.disagree, h]

/-- An entry whose tag passes is found as it is. -/
theorem checkEntry_passes {s : State} {k : Nat} (h : s.keyPasses k = true) : s.checkEntry k = s := by
  simp [State.checkEntry, h]

/-- The entry of a slot that is lost touches the security and alarm blocks alone. -/
theorem loseSlot_frame (s : State) (slot : Nat) :
    s.loseSlot slot = { s with sec := (s.loseSlot slot).sec, alm := (s.loseSlot slot).alm } := by
  simp only [State.loseSlot]
  split
  · rw [disagree_frame]
  · rfl

/-- An entry whose tag passes is not lost. -/
theorem loseSlot_passes {s : State} {slot : Nat} (h : s.keyPasses (4 + slot) = true) : s.loseSlot slot = s := by
  simp [State.loseSlot, h]

/-! ## Stores, stops, waiting draws and slot records -/

/-- What a store does to the fills that stand changes tiles alone. -/
theorem stored_frame (members : List Nat) (a n : Nat) :
    ∀ s : State, s.stored members a n = { s with tiles := (s.stored members a n).tiles } := by
  simp only [State.stored]
  generalize tileParts members a n = parts
  induction members with
  | nil => exact fun _ => rfl
  | cons m l ih => intro s; rw [List.foldl_cons, ih]; rfl

/-- A stop that opens changes tiles and clauses alone. -/
theorem openStop_frame (s : State) (c : Nat) (members : List Nat) (k : Nat) :
    s.openStop c members k = { s with tiles := (s.openStop c members k).tiles, clauses := (s.openStop c members k).clauses } := by
  have h (l : List Nat) : ∀ u : State, l.foldl (fun (s : State) m => s.modTile m fun T => { T with arr := T.arr.set k [] }) u =
      { u with tiles := (l.foldl (fun (s : State) m => s.modTile m fun T => { T with arr := T.arr.set k [] }) u).tiles } := by
    induction l with
    | nil => exact fun _ => rfl
    | cons m l ih => intro u; rw [List.foldl_cons, ih]; rfl
  simp only [State.openStop]
  split
  · rw [h]; rfl
  · rfl

/-- A request that begins to wait changes the list of waiting requests alone. -/
theorem await_frame (s : State) (r : DrawReq) : s.await r = { s with draws := (s.await r).draws } := rfl

/-- A commit writes one copy of the slot records. -/
theorem commit_frame (f : Fw) : f.commit = { f with copy0 := f.commit.copy0, copy1 := f.commit.copy1 } := by
  simp only [Fw.commit]
  split <;> rfl

end Sys2Proof.Machine
end

