-- ==== Sys2Proof/WellFormed.lean ====
section
/-! DEFINITION. Which commands can be sent: every number names something the manual counts, every byte string has the
length the manual gives it. -/
namespace Sys2Proof

/-- A read of host memory of n bytes, or a failed one. -/
def fetched (r : HostRead) (n : Nat) : Bool :=
  match r with
  | .ok data => data.length == n
  | .fail _ => true

/-- Key set-up messages of the lengths R359 gives. -/
def KeyMsg.wf : KeyMsg → Bool
  | .step1 cert ca _ nonce ek => cert.length == 3184 && ca.length == 3184 && nonce.length == 32 && ek.length == 1568
  | .step2 ct sig => ct.length == 1568 && sig.length == 1280

/-- A sensor of the part. -/
def Sensor.wf : Sensor → Bool
  | .tile t => t < 384
  | .vigil => true

/-- Well-formed commands. -/
def Instr.wf : Instr → Bool
  | .registerWrite off _ _ => off < 0x4000000
  | .commandFetch q data => q < 16 && fetched data 64
  | .submissionDoorbell off _ => off < 0x80 ∧ off % 8 = 0
  | .completionDoorbell off _ => 0x100 ≤ off ∧ off < 0x180 ∧ off % 8 = 0
  | .queueEnable q _ => q < 16
  | .queueDisable q _ => q < 16
  | .completionRecordWrite _ => true
  | .loadWeave _ _ => true
  | .applyWeave _ _ => true
  | .launch _ => true
  | .copy _ _ => true
  | .saveCtx _ => true
  | .restoreCtx _ => true
  | .sanitize _ => true
  | .attest _ => true
  | .sessionOpen _ => true
  | .sessionClose _ => true
  | .fwStage _ _ _ => true
  | .fwActivate _ _ _ => true
  | .fwActivateAtNextStart _ => true
  | .fwConfirm _ => true
  | .transcriptStart _ => true
  | .transcriptStop _ => true
  | .replay _ => true
  | .powerState _ => true
  | .halfPowerOff _ => true
  | .halfPowerOn _ => true
  | .tallyCfg _ => true
  | .entropyRead _ _ => true
  | .bar2Write off data => off + data.length ≤ 0x10000000000
  | .weaveReadback => true
  | .phraseStart t => t < 384
  | .loadBalanceTake t => t < 384
  | .clauseRunComplete c => c < 64
  | .nop t p _ => t < 384 && p < 64
  | .br t p _ => t < 384 && p < 64
  | .brz t p _ => t < 384 && p < 64
  | .brnz t p _ => t < 384 && p < 64
  | .brany t p _ => t < 384 && p < 64
  | .brall t p _ => t < 384 && p < 64
  | .loop t p _ => t < 384 && p < 64
  | .plaunch t p _ => t < 384 && p < 64
  | .pend t p _ => t < 384 && p < 64
  | .smov t p _ => t < 384 && p < 64
  | .smovh t p _ => t < 384 && p < 64
  | .salu t p _ => t < 384 && p < 64
  | .salui t p _ => t < 384 && p < 64
  | .srd t p _ => t < 384 && p < 64
  | .vflags t p _ => t < 384 && p < 64
  | .utrap t p _ => t < 384 && p < 64
  | .vld t p _ => t < 384 && p < 64
  | .vst t p _ => t < 384 && p < 64
  | .vldx t p _ => t < 384 && p < 64
  | .vstx t p _ => t < 384 && p < 64
  | .sld t p _ => t < 384 && p < 64
  | .sst t p _ => t < 384 && p < 64
  | .sldw t p _ => t < 384 && p < 64
  | .dma t p _ => t < 384 && p < 64
  | .dmaTransferComplete t p tag => t < 384 && p < 64 && tag < 16
  | .dmaw t p _ => t < 384 && p < 64
  | .pref t p _ => t < 384 && p < 64
  | .aopen t p _ => t < 384 && p < 64
  | .aldh t p _ => t < 384 && p < 64
  | .heldLoadComplete t => t < 384
  | .amac t p _ => t < 384 && p < 64
  | .adrn t p _ => t < 384 && p < 64
  | .gangCombine t => t < 384
  | .vadd t p _ => t < 384 && p < 64
  | .vsub t p _ => t < 384 && p < 64
  | .vmul t p _ => t < 384 && p < 64
  | .vfma t p _ => t < 384 && p < 64
  | .vdiv t p _ => t < 384 && p < 64
  | .vsqrt t p _ => t < 384 && p < 64
  | .vmin t p _ => t < 384 && p < 64
  | .vmax t p _ => t < 384 && p < 64
  | .vcmp t p _ => t < 384 && p < 64
  | .vsel t p _ => t < 384 && p < 64
  | .vcvt t p _ => t < 384 && p < 64
  | .vbx t p _ => t < 384 && p < 64
  | .vubx t p _ => t < 384 && p < 64
  | .vred t p _ => t < 384 && p < 64
  | .vtrn t p _ => t < 384 && p < 64
  | .vmov t p _ => t < 384 && p < 64
  | .vint t p _ => t < 384 && p < 64
  | .vpred t p _ => t < 384 && p < 64
  | .vlane t p _ => t < 384 && p < 64
  | .vxs t p _ => t < 384 && p < 64
  | .osel t p _ => t < 384 && p < 64
  | .orun t p _ => t < 384 && p < 64
  | .strandPhaseComplete t => t < 384
  | .phaseStopRelease t => t < 384
  | .spinEvent _ => true
  | .freeRunLatch t unit together => t < 384 && unit < 512 && together.all (· < 512)
  | .ord t p _ => t < 384 && p < 64
  | .owf t p _ => t < 384 && p < 64
  | .obank t p _ => t < 384 && p < 64
  | .obankLoadComplete t => t < 384
  | .oswap t p _ => t < 384 && p < 64
  | .obias t p _ => t < 384 && p < 64
  | .oss t p _ => t < 384 && p < 64
  | .nld t p _ => t < 384 && p < 64
  | .nrd t p _ => t < 384 && p < 64
  | .nwr t p _ => t < 384 && p < 64
  | .rdraw t p _ => t < 384 && p < 64
  | .rctx t p _ => t < 384 && p < 64
  | .rdrop t p _ => t < 384 && p < 64
  | .arrive t p _ => t < 384 && p < 64
  | .stopGenerationComplete c stop => c < 64 && stop < 16
  | .wait t p _ => t < 384 && p < 64
  | .stopn t p _ => t < 384 && p < 64
  | .fsend t p _ => t < 384 && p < 64
  | .foldGroupCombine slot _ pass => slot < 1024 && (pass = 1 || pass = 2)
  | .foldExponentBroadcast slot => slot < 1024
  | .frecv t p _ => t < 384 && p < 64
  | .atom t p _ => t < 384 && p < 64
  | .hbmAtomic _ => true
  | .hbmAccess addr _ _ => addr < 0x9000000000
  | .hbmRefresh stack _ => stack < 12
  | .trd t p _ => t < 384 && p < 64
  | .tmark t p _ => t < 384 && p < 64
  | .hold t p _ => t < 384 && p < 64
  | .remoteAccess n _ => n < 32
  | .tjSample t _ => t < 384
  | .telemetryRead _ _ => true
  | .calibrationStart t => t < 384
  | .calibrationComplete t m => t < 384 && m.units.length ≤ 512
  | .spotCheckStart t => t < 384
  | .spotCheckComplete t _ => t < 384
  | .calCmdStart t => t < 384
  | .calCmdSpot t => t < 384
  | .throttleStep _ => true
  | .pwrVsetWrite _ => true
  | .thermtrip => true
  | .entropyBlockComplete cell raw => cell < 32 && raw.length = 256
  | .healthTestFail cell _ => cell < 32
  | .cellRetest cell => cell < 32
  | .startupTestComplete cell bits => cell < 32 && bits.length = 128
  | .entFailPersist _ => true
  | .hopCmdRetest _ => true
  | .hopCmdCapture _ => true
  | .rawCaptureComplete _ bits => bits.length = 131072
  | .tksEnable _ _ => true
  | .tksDisable _ _ => true
  | .tksKick _ => true
  | .tksTailPoll _ => true
  | .tksRequest _ => true
  | .linkFrameTransmit n => n < 32
  | .linkGroupReceive n _ => n < 32
  | .linkNak n _ => n < 32
  | .linkTransit n => n < 32
  | .linkTrainingComplete n _ => n < 32
  | .linkHello n hello => n < 32 && hello.keyId.length = 32
  | .linkKeySetupMessage n m => n < 32 && m.wf
  | .linkKeySetupRetry n => n < 32
  | .glkCmdRekey n => n < 32
  | .glkCmdRetrain n => n < 32
  | .glkCmdWake n => n < 32
  | .wakePatternTimeout n => n < 32
  | .linkDown n => n < 32
  | .linkHoldExpire n => n < 32
  | .linkSwitchOff n => n < 32
  | .linkWakeDetect n _ _ => n < 32
  | .fwForwardReceive n _ _ => n < 32
  | .fwForwardAbandon i => i < 4
  | .fwRecovGo => true
  | .fwRecovFinish _ => true
  | .bootReadyTimeout => true
  | .dbgChallenge => true
  | .dbgSubmit => true
  | .dbgLock => true
  | .dbgNonceExpire => true
  | .almPolicyWrite _ => true
  | .almCfgWrite _ => true
  | .meshBreach _ => true
  | .temperatureOutOfRange x => x.sensor.wf
  | .backsideLight _ => true
  | .vigilWake _ _ => true
  | .plaitWake _ _ => true
  | .coldReset _ => true
  | .resetNAssert => true
  | .fundamentalReset => true
  | .hostWarmReset _ _ => true
  | .stbyResetRelease _ _ => true
  | .plaitTransaction _ => true
  | .plaitResponseAbandon => true
  | .mailboxRequest _ _ => true
  | .tapDbgAccess _ => true
  | .tapDbgCmd _ => true
  | .dbgCtlHold t _ => t < 384
  | .dbgCtlStep t _ => t < 384
  | .stewardHold _ _ => true
  | .stewardStep _ => true
  | .tlyClear => true
  | .tileTallyClear t => t < 384
  | .tlyDumpNow => true
  | .tallyDump => true
  | .stbyResetAssert => true
  | .linkSignalDetect n => n < 32
  | .failedBootRestart => true

end Sys2Proof
end

