-- ==== Sys2Proof/Tests/Slice0.lean ====
section
/-! SUPPORT. The model's own tests: ill-formed commands that WellFormed refuses, and for each statement small states and operands that
meet its hypotheses, with what one step does there. Expected values are worked out by hand from the rules. -/
namespace Sys2Proof.Tests
open Sys2Proof Sys2Proof.Machine
set_option Elab.async false

/-! ## A small block -/

/-- A weave that holds nothing but clause 0 over tile 0, with one program of two words. -/
def weave0 (w : BitVec 64) : Weave :=
  { isPartial := false, gradeMask := 3, tileSpan := 2, weaveId := List.replicate 16 1, baseDigest := List.replicate 64 0,
    bodyDigest := List.replicate 64 0, tiles := [0], clauses := [{ id := 0, gangA := 0, gangB := 0, members := [0] }],
    routes := [], mcast := [], folds := [], tables := [], osier := [], bridges := [], anchors := [],
    programs := [{ clause := 0, code := [w, 0], entry := 0 }], memplan := [], pgkeys := [], tally := none, links := none,
    policy := {}, raw := [] }

/-- A phrase of two lanes at the first instruction: s4 is 5, s5 is -3, s6 is 64, s7 is 7, p1 has lane 1, every lane of v1 is 9, of
v2 -4, of v3 the greatest int32. -/
def phrase0 : Phrase :=
  { pc := 0, lanes := 2, base := 0x100, s := [0, 0x100, 2, 0, 5, 0xFFFFFFFFFFFFFFFD, 64, 7] ++ List.replicate 24 0,
    v := [0, 9, 0xFFFFFFFC, 0x7FFFFFFF].map (List.replicate 64) ++ List.replicate 28 (List.replicate 64 0),
    p := [0, 2] ++ List.replicate 6 0, loops := [],
    rctx := { slot := none, lane := false, stream := 0, pos := List.replicate 64 0 }, ctr := List.replicate 64 0,
    tags := List.replicate 16 0, vflags := 0, arrived := List.replicate 16 none }

/-- Two tiles, one in each half, the core running and ready, clause 0 installed with phrase ph in slot 0 of tile 0, whose program is
the instruction word w and a NOP. -/
def small (w : BitVec 64) (ph : Phrase) : State :=
  { State.reset with
    fuse := { grade := 0, tileMap := [0, 512] }
    pwr := { Pwr.reset with core := .running }
    dev := { Dev.reset with ready := true }
    hbmStacks := List.replicate 12 { Stack.reset with up := true }
    weave := { WeaveSt.reset with installed := some (weave0 w) }
    clauses := [{ id := 0, gens := List.replicate 16 0, run := none, frozen := false, satMask := 0, struck := none,
                  uncorr := false }]
    tiles := [{ Tile.reset with clause := some 0, imem := [w, 0], slots := some ph :: List.replicate 63 none }, Tile.reset] }

/-- Tile 0 changed. -/
def tile0 (g : Tile → Tile) (s : State) : State := s.modTile 0 g

/-- The installed weave changed. -/
def weaveMod (g : Weave → Weave) (s : State) : State := { s with weave := { s.weave with installed := s.weave.installed.map g } }

/-- What instruction op with fields f runs on, where it runs on tile 0, slot 0. -/
def runsOn (op : BitVec 8) (u : Use) (f : Fields) (s : State) (q : Ctx → Bool) : Bool :=
  match s.issuable 0 0 op f with
  | some x => decide (bpHit x.T 0 x.ph.pc = none) && u.legal f && q x
  | none => false

/-- Whether a command answers a next state for which r holds. -/
def gives (c : Instr) (s : State) (r : State → Bool) : Bool :=
  match Sys2Proof.Machine.exec c s with
  | .next s' => r s'
  | _ => false

/-- An instruction runs at a state on operands for which q holds, and answers a next state for which r holds. -/
abbrev Works (op : BitVec 8) (u : Use) (f : Fields) (c : Nat → Nat → Fields → Instr) (s : State) (q : Ctx → Bool)
    (r : State → Bool) : Prop :=
  (∃ x, Runs op u s 0 0 f x ∧ q x = true) ∧ gives (c 0 0 f) s r = true

theorem works {op : BitVec 8} {u : Use} {f : Fields} {c : Nat → Nat → Fields → Instr} {s : State} {q : Ctx → Bool}
    {r : State → Bool} (h : runsOn op u f s q = true ∧ gives (c 0 0 f) s r = true) : Works op u f c s q r := by
  obtain ⟨h, h'⟩ := h
  refine ⟨?_, h'⟩
  simp only [runsOn] at h
  split at h
  · rename_i x hx
    simp only [Bool.and_eq_true, decide_eq_true_eq] at h
    exact ⟨x, ⟨hx, h.1.1, h.1.2⟩, h.2⟩
  · cases h

/-- The small state whose first instruction is op with fields f. -/
def at0 (op : BitVec 8) (f : Fields) : State := small (wordOf op f) phrase0

/-- Scalar d of the phrase in slot 0 of tile 0 is v, and the phrase stands at the second instruction. -/
def sIs (d : BitVec 5) (v : BitVec 64) (s : State) : Bool := (s.phraseAt 0 0).map (fun ph => (ph.rs d, ph.pc)) == some (v, 1)

/-- The phrase in slot 0 of tile 0 stands at instruction n. -/
def pcIs (n : Nat) (s : State) : Bool := (s.phraseAt 0 0).map (·.pc) == some n

/-- Lanes 0, 1 and 2 of v[d] are as listed. -/
def vIs (d : Nat) (l : List (BitVec 32)) (s : State) : Bool :=
  (s.phraseAt 0 0).map (fun ph => (List.range 3).map (ph.lane d)) == some l

/-- A byte string of SRAM of tile 0. -/
def sramIs (o : Nat) (l : List Byte) (s : State) : Bool := (s.tile 0).sram.read o l.length == l

/-- Tile 0 has recorded a fault with this cause, and its clause is frozen. -/
def faultIs (cause : Nat) (s : State) : Bool := (s.tile 0).fault.valid && (s.tile 0).fault.cause == cause && s.frozen 0

/-- No condition on the operands. -/
def any (_ : Ctx) : Bool := true

/-- A started command 0 of queue 0: opcode, param0 and up to seven 8-byte parameters. -/
def cmd0 (op p0 : Nat) (ps : List Nat) : Started :=
  { id := 0, queue := 0, cid := 7, opcode := op
    desc := [BitVec.ofNat 8 op, 0, 7, 0] ++ leBytes 4 p0 ++ ps.flatMap (leBytes 8) ++ List.replicate (56 - 8 * ps.length) 0
    readNo := 0, session := none, units := none, fin := none }

/-- The small block with that command started. -/
def cmd (op p0 : Nat) (ps : List Nat) : State := { at0 0 {} with started := [cmd0 op p0 ps], nextId := 1 }

/-- Whether the chief steward may carry command 0 on, as Takes says. -/
def takes (op : Nat) (s : State) : Bool :=
  (s.cmd 0).any (fun c => c.opcode == op && c.fin == none) && s.chiefRuns && !s.afterSanitize 0

theorem takes_of {op : Nat} {s : State} (h : takes op s = true) : ∃ c, Takes s 0 op c := by
  simp only [takes, Bool.and_eq_true, Option.any_eq_true] at h
  obtain ⟨⟨⟨c, h1, h2⟩, h3⟩, h4⟩ := h
  simp only [beq_iff_eq] at h2
  exact ⟨c, ⟨h1, h2.1, h2.2⟩, h3, by simpa using h4⟩

/-- Command 0 has finished so. -/
def fin0 (st d0 d1 d2 : Nat) (s : State) : Bool :=
  (s.cmd 0).bind (·.fin) ==
    some { status := st, detail0 := BitVec.ofNat 64 d0, detail1 := BitVec.ofNat 64 d1, detail2 := BitVec.ofNat 64 d2 }

/-- Command 0 waits under its opcode and its step leads to a state for which r holds. -/
abbrev Carries (op : Nat) (c : Instr) (s : State) (r : State → Bool) : Prop := (∃ d, Takes s 0 op d) ∧ gives c s r = true

theorem carries {op : Nat} {c : Instr} {s : State} {r : State → Bool} (h : takes op s = true ∧ gives c s r = true) :
    Carries op c s r := ⟨takes_of h.1, h.2⟩

/-! ## Steps -/

theorem test_step_front :
    (match Sys2Proof.Machine.step { at0 0x09 { d := 3, imm := 7 } with pending := [.smov 0 0 { d := 3, imm := 7 }, .nop 0 0 {}] } with
     | .next s => sIs 3 7 s && s.pending == [.nop 0 0 {}]
     | _ => false) = true := by decide

theorem test_step_idle :
    (match Sys2Proof.Machine.step (at0 0x09 {}) with | .next s => s.timer == 10 | _ => false) = true ∧
    (match Sys2Proof.Machine.step State.reset with | .next s => s.timer == 0 | _ => false) = true := by decide

/-- In dedicated mode a tick leaves the count of chunks pushed (event 0x05) as it is. -/
theorem test_step_idle_tally :
    (match Sys2Proof.Machine.step { at0 0x09 {} with tly := { (at0 0x09 {}).tly with cfg := { (at0 0x09 {}).tly.cfg with dedicated := true } } } with
     | .next s => (s.tile 0).cnt[0x05]? == some 0 && s.tly.cfg.dedicated && s.pending.isEmpty
     | _ => false) = true := by decide

/-! ## Control and scalar instructions -/

theorem test_smov : Works 0x09 { d := true, imm := BitVec.allOnes 32 } { d := 3, imm := 0xFFFFFFFE } .smov
    (at0 0x09 { d := 3, imm := 0xFFFFFFFE }) any (sIs 3 0xFFFFFFFFFFFFFFFE) := works (by decide)

theorem test_smov_s0 : Works 0x09 { d := true, imm := BitVec.allOnes 32 } { d := 0, imm := 1 } .smov
    (at0 0x09 { d := 0, imm := 1 }) any (sIs 0 0) := works (by decide)

theorem test_smovh : Works 0x0A { d := true, imm := BitVec.allOnes 32 } { d := 4, imm := 0x80000000 } .smovh
    (at0 0x0A { d := 4, imm := 0x80000000 }) any (sIs 4 0x8000000000000005) := works (by decide)

theorem test_salu : Works 0x0B { d := true, a := true, b := true, imm := 0xF } { d := 3, a := 4, b := 5, imm := 9 } .salu
    (at0 0x0B { d := 3, a := 4, b := 5, imm := 9 }) (fun x => (salu64 9 (x.ph.rs 4) (x.ph.rs 5)).isSome)
    (sIs 3 0xFFFFFFFFFFFFFFFD) := works (by decide)

theorem test_salui : Works 0x0C { d := true, a := true, imm := BitVec.allOnes 32 } { d := 4, a := 4, imm := 0xFFFFFFF0 } .salui
    (at0 0x0C { d := 4, a := 4, imm := 0xFFFFFFF0 }) any (sIs 4 4) := works (by decide)

theorem test_srd : Works 0x0D { d := true, imm := BitVec.allOnes 32 } { d := 3, imm := 1 } .srd
    (at0 0x0D { d := 3, imm := 1 }) (fun x => (srdValue x).isSome) (pcIs 1) := works (by decide)

theorem test_vflags : Works 0x0E { d := true, imm := 0x1F } { d := 3, imm := 8 } .vflags
    (small (wordOf 0x0E { d := 3, imm := 8 }) { phrase0 with vflags := 0xA }) any
    (fun s => sIs 3 0xA s && (s.phraseAt 0 0).map (·.vflags) == some 2) := works (by decide)

theorem test_br : Works 0x01 { imm := BitVec.allOnes 32 } { imm := 1 } .br (at0 0x01 { imm := 1 })
    (fun x => x.ph.loops == [] && decide (x.T.imem.length = 2)) (pcIs 1) := works (by decide)

theorem test_br_outside : Works 0x01 { imm := BitVec.allOnes 32 } { imm := 2 } .br (at0 0x01 { imm := 2 }) any
    (fun s => faultIs 6 s && pcIs 0 s) := works (by decide)

theorem test_brz : Works 0x02 { a := true, imm := BitVec.allOnes 32 } { a := 3 } .brz (at0 0x02 { a := 3 }) any (pcIs 0) ∧
    Works 0x02 { a := true, imm := BitVec.allOnes 32 } { a := 4 } .brz (at0 0x02 { a := 4 }) any (pcIs 1) ∧
    Works 0x02 { a := true, imm := BitVec.allOnes 32 } { a := 3, imm := 0xFFFFFFFF } .brz (at0 0x02 { a := 3, imm := 0xFFFFFFFF })
      any (faultIs 6) :=
  ⟨works (by decide), works (by decide), works (by decide)⟩

theorem test_brnz : Works 0x03 { a := true, imm := BitVec.allOnes 32 } { a := 4 } .brnz (at0 0x03 { a := 4 }) any (pcIs 0) ∧
    Works 0x03 { a := true, imm := BitVec.allOnes 32 } { a := 3, imm := 2 } .brnz (at0 0x03 { a := 3, imm := 2 }) any (faultIs 6) :=
  ⟨works (by decide), works (by decide)⟩

theorem test_brany : Works 0x04 { imm := BitVec.allOnes 32, cond := true } { pr := 1 } .brany (at0 0x04 { pr := 1 })
      (fun x => (x.ph.guard { pr := 1 }).getLsbD 1) (pcIs 0) ∧
    Works 0x04 { imm := BitVec.allOnes 32, cond := true } { pr := 2, imm := 2 } .brany (at0 0x04 { pr := 2, imm := 2 }) any
      (faultIs 6) :=
  ⟨works (by decide), works (by decide)⟩

theorem test_brall : Works 0x05 { imm := BitVec.allOnes 32, cond := true } { pr := 1 } .brall (at0 0x05 { pr := 1 })
      (fun x => !(x.ph.guard { pr := 1 }).getLsbD 0) (pcIs 1) ∧
    Works 0x05 { imm := BitVec.allOnes 32, cond := true } { pr := 2, pn := 1, imm := 2 } .brall
      (at0 0x05 { pr := 2, pn := 1, imm := 2 }) any (faultIs 6) :=
  ⟨works (by decide), works (by decide)⟩

theorem test_loop : Works 0x06 { a := true, imm := 0x1FFF } { a := 4, imm := 1 } .loop (at0 0x06 { a := 4, imm := 1 })
      (fun x => x.ph.loops == []) (fun s => pcIs 1 s && (s.phraseAt 0 0).map (·.loops) ==
        some [{ start := 1, stop := 1, remaining := 5 }]) ∧
    Works 0x06 { a := true, imm := 0x1FFF } { a := 3, imm := 1 } .loop (at0 0x06 { a := 3, imm := 1 })
      (fun x => x.ph.loops == []) (pcIs 2) :=
  ⟨works (by decide), works (by decide)⟩

theorem test_plaunch : Works 0x07 { a := true, b := true, imm := 0x1FFF } { a := 7, b := 6, imm := 1 } .plaunch
      (at0 0x07 { a := 7, b := 6, imm := 1 }) (fun x => x.T.wq == []) (fun s => pcIs 1 s &&
        (s.tile 0).wq.map (fun i => (i.base, i.lanes, i.entry)) == [(7, 64, 1)]) ∧
    (launchItems phrase0 7 65 1).map (fun i => (i.base, i.lanes)) = [(7, 64), (71, 1)] :=
  ⟨works (by decide), by decide⟩

theorem test_pend : Works 0x08 {} {} .pend (at0 0x08 {}) (fun x => !x.T.au.isOpen && !x.s.outstanding 0 0)
    (fun s => s.phraseAt 0 0 == none) := works (by decide)

theorem test_pref : Works 0x19 { a := true, imm := 0xFFFF } { a := 4, imm := 64 } .pref (at0 0x19 { a := 4, imm := 64 }) any (pcIs 1) :=
  works (by decide)

theorem test_nop : Works 0x00 {} {} .nop (at0 0x00 {}) any (pcIs 1) := works (by decide)

theorem test_utrap : Works 0x0F { imm := BitVec.allOnes 32 } { imm := 77 } .utrap (at0 0x0F { imm := 77 })
      (fun x => !x.T.fault.valid) (fun s => faultIs 15 s && (s.tile 0).fault.detail == 77) ∧
    Works 0x0F { imm := BitVec.allOnes 32 } { imm := 77 } .utrap
      (tile0 (fun T => { T with fault := { FaultReg.reset with valid := true, cause := 3 } }) (at0 0x0F { imm := 77 }))
      (fun x => x.T.fault.valid) (fun s => faultIs 3 s) :=
  ⟨works (by decide), works (by decide)⟩

theorem test_registers : phrase0.s.length = 32 ∧ phrase0.v.length = 32 ∧ phrase0.p.length = 8 ∧
    ((phrase0.ws 31 6).rs 31, (phrase0.ws 31 6).rs 4, (phrase0.wp 7 3).rp 7, (phrase0.wp 7 3).rp 0) =
      (6, 5, 3, BitVec.allOnes 64) := by decide

/-! ## Memory -/

/-- Tile 0's SRAM holds l from address 64. -/
def sram64 (l : List Byte) : State → State := tile0 fun T => { T with sram := Mem.cells 64 l }

/-- Regions that clause 0 may use: a plain one at 0x1000 and one of atomic cells at 0x2000. -/
def plans : State → State := weaveMod fun w =>
  { w with memplan := [{ id := 0, kind := 0, clauses := 1, base := 0x1000, len := 0x1000 },
                       { id := 1, kind := 2, clauses := 1, base := 0x2000, len := 0x1000 }] }

theorem test_vld : Works 0x10 { d := true, a := true, imm := 0x3FFFFFFF, lanewise := true } { d := 8, a := 6 } .vld
      (sram64 [1, 2, 3, 4, 5, 6, 7, 8] (at0 0x10 { d := 8, a := 6 })) (fun x => x.badLane 32 (x.rowLanes 32) == none)
      (fun s => vIs 8 [0x04030201, 0x08070605, 0] s && pcIs 1 s) ∧
    Works 0x10 { d := true, a := true, imm := 0x3FFFFFFF, lanewise := true } { d := 8, a := 7 } .vld (at0 0x10 { d := 8, a := 7 })
      (fun x => (x.badLane 32 (x.rowLanes 32)).map (·.addr) == some 7) (fun s => faultIs 3 s && (s.tile 0).fault.addr == 7) :=
  ⟨works (by decide), works (by decide)⟩

theorem test_vldx : Works 0x12 { d := true, a := true, b := true, imm := 0x30000000, lanewise := true } { d := 8, a := 6, b := 10 }
    .vldx (sram64 [1, 2, 3, 0x84] (at0 0x12 { d := 8, a := 6, b := 10 })) (fun x => x.badLane 32 (x.gatherLanes 32) == none)
    (fun s => vIs 8 [0x84030201, 0x84030201, 0] s && pcIs 1 s) := works (by decide)

theorem test_sld : Works 0x14 { d := true, a := true, imm := BitVec.allOnes 32 } { d := 9, a := 6 } .sld
    (sram64 [1, 2, 3, 4, 5, 6, 7, 8] (at0 0x14 { d := 9, a := 6 })) (fun x => x.sramOk x.scalarAddr 8 8)
    (sIs 9 0x0807060504030201) := works (by decide)

theorem test_sldw : Works 0x16 { d := true, a := true, imm := BitVec.allOnes 32 } { d := 9, a := 6 } .sldw
    (sram64 [1, 2, 3, 0x84] (at0 0x16 { d := 9, a := 6 })) (fun x => x.sramOk x.scalarAddr 4 4) (sIs 9 0x84030201) :=
  works (by decide)

theorem test_vst : Works 0x11 { d := true, a := true, imm := 0x3FFFFFFF, lanewise := true } { d := 1, a := 6 } .vst
      (at0 0x11 { d := 1, a := 6 }) (fun x => x.badLane 32 (x.rowLanes 32) == none) (sramIs 64 [9, 0, 0, 0, 9, 0, 0, 0, 0]) ∧
    Works 0x11 { d := true, a := true, imm := 0x3FFFFFFF, lanewise := true } { d := 1, a := 7 } .vst (at0 0x11 { d := 1, a := 7 })
      (fun x => (x.badLane 32 (x.rowLanes 32)).isSome) (faultIs 3) :=
  ⟨works (by decide), works (by decide)⟩

theorem test_vstx : Works 0x13 { d := true, a := true, b := true, imm := 0x30000000, lanewise := true } { d := 2, a := 6, b := 10 }
    .vstx (at0 0x13 { d := 2, a := 6, b := 10 }) (fun x => x.badLane 32 (x.gatherLanes 32) == none)
    (sramIs 64 [0xFC, 0xFF, 0xFF, 0xFF, 0]) := works (by decide)

theorem test_sst : Works 0x15 { d := true, a := true, imm := BitVec.allOnes 32 } { d := 5, a := 6 } .sst
      (at0 0x15 { d := 5, a := 6 }) (fun x => x.sramOk x.scalarAddr 8 8 && decide (x.cr.members.getD 0 0 < x.s.tiles.length))
      (sramIs 64 [0xFD, 0xFF, 0xFF, 0xFF, 0xFF, 0xFF, 0xFF, 0xFF, 0]) ∧
    Works 0x15 { d := true, a := true, imm := BitVec.allOnes 32 } { d := 5, a := 7 } .sst (at0 0x15 { d := 5, a := 7 })
      (fun x => decide (x.scalarAddr % 8 ≠ 0)) (faultIs 3) :=
  ⟨works (by decide), works (by decide)⟩

/-- A descriptor of one row of 8 bytes between HBM 0x1000 and SRAM 128 in a direction, with n rows. -/
def desc (dir n : Byte) : List Byte :=
  [dir, 0, 0, 0, n, 0, 0, 0, 0, 0x10, 0, 0, 0, 0, 0, 0, 128, 0, 0, 0, 8, 0, 0, 0, 8, 0, 0, 0, 8, 0, 0, 0]

theorem test_dma : Works 0x17 { a := true, imm := 0xF } { a := 6, imm := 3 } .dma
      (plans (sram64 (desc 0 1) (at0 0x17 { a := 6, imm := 3 })))
      (fun x => x.T.dmas == [] && x.sramOk 64 32 32 && dmaFault x (parseDma (desc 0 1)) == none)
      (fun s => pcIs 1 s && (s.tile 0).dmas.map (fun d => (d.tag, d.hbm, d.sram, d.rowBytes, d.toHbm)) == [(3, 0x1000, 128, 8, false)]) ∧
    Works 0x17 { a := true, imm := 0xF } { a := 6, imm := 3 } .dma (plans (sram64 (desc 0 0) (at0 0x17 { a := 6, imm := 3 })))
      (fun x => x.T.dmas == [] && decide ((parseDma (desc 0 0)).rows = 0)) (fun s => pcIs 1 s && (s.tile 0).dmas == []) :=
  ⟨works (by decide), works (by decide)⟩

theorem test_dmaw : Works 0x18 { d := true, imm := 0xFFFF } { d := 3, imm := 8 } .dmaw
    (small (wordOf 0x18 { d := 3, imm := 8 }) { phrase0 with tags := [0, 0, 0, 0x41] ++ List.replicate 12 0 })
    (fun x => x.T.dmas == []) (sIs 3 0x41) := works (by decide)

/-- A transfer of 8 bytes with tag 3 between HBM 0x1000 and SRAM 128. -/
def dma8 (toHbm : Bool) : Dma :=
  { slot := 0, tag := 3, pc := 0, word := 0, toHbm := toHbm, dests := none, rows := 1, addr := 0x1000, hbm := 0x1000, sram := 128,
    rowBytes := 8, hbmStride := 8, sramStride := 8, src := if toHbm then [[1, 2, 3, 4, 5, 6, 7, 8]] else [], via := .here,
    stamp := 0 }

theorem test_dma_transfer_complete :
    let r := tile0 (fun T => { T with dmas := [dma8 false] }) { at0 0 {} with hbm := Mem.cells 0x1000 [9, 0, 7] }
    let w := tile0 (fun T => { T with dmas := [dma8 true] }) { at0 0 {} with hbm := Mem.cells 0xFFF [6] }
    (r.tileUp 0 && (r.struckLines 0x1000 8).isEmpty && (r.members 0 == [0]) &&
      gives (.dmaTransferComplete 0 0 3) r (fun s => sramIs 127 [0, 9, 0, 7, 0] s && (s.tile 0).dmas == [])) = true ∧
    gives (.dmaTransferComplete 0 0 3) w (fun s => s.hbm == Mem.cells 0xFFF [6, 1, 2, 3, 4, 5, 6, 7, 8] && (s.tile 0).dmas == []) = true := by
  decide

theorem test_atom : Works 0x92 { a := true, b := true, c := true, imm := 0x7, lanewise := true } { a := 8, b := 10, c := 1, imm := 0 }
    .atom (plans (small (wordOf 0x92 { a := 8, b := 10, c := 1, imm := 0 }) (phrase0.ws 8 0x2000)))
    (fun x => x.lanes == [0, 1] && x.lanes.all fun l => x.atomFault 4 l == none)
    (fun s => pcIs 1 s && s.atoms.map (fun e => (e.hbm, e.operand)) == [(0x2000, 9), (0x2000, 9)]) := works (by decide)

/-- An atomic of a phrase to a cell. -/
def atomOf (code : BitVec 3) (v : Int) : AtomReq :=
  { clause := 0, tile := 0, slot := 0, pc := 0, word := 0, isFold := false, via := .here, addr := 0x2000, hbm := 0x2000, code := code,
    operand := v, stamp := 0 }

theorem test_hbm_atomic :
    let s := { at0 0 {} with hbm := Mem.cells 0x2000 [0xFF, 0xFF, 0xFF, 0x7F], atoms := [atomOf 0 1] }
    (s.up && !s.hbmAsleep 0x2000 4 && !s.struckAt 0x2000 && decide s.hbm.Wf &&
      gives (.hbmAtomic 0) s (fun s' => s'.exactOf 0x2000 4 == 2 ^ 31 && s'.hbm == s.hbm && s'.atoms == [])) = true := by decide

theorem test_hbm_atomic_guard :
    let s := { at0 0 {} with exact := [{ addr := 0x2000, width := 4, val := 2 ^ 39 - 1 }], atoms := [atomOf 0 1] }
    gives (.hbmAtomic 0) s (fun s' => s'.exactOf 0x2000 4 == 2 ^ 39 - 1 && s'.dev.aGuard) = true := by decide

theorem test_atomic_order_hypotheses :
    let s := { at0 0 {} with hbm := Mem.cells 0x2000 [0xFF, 0xFF, 0xFF, 0x7F] }
    s.hbm.Wf ∧ s.struckAt 0x2000 = false ∧ [5, -7].Perm [-7, 5] ∧ s.exactOf 0x2000 (atomWidth 0) + 5 ≤ guardBound (atomWidth 0) ∧
      -guardBound (atomWidth 0) ≤ s.exactOf 0x2000 (atomWidth 0) + (-7) ∧ s.firstOffline 0x2002 1 = none := by decide

theorem test_hbm_access :
    let s := { at0 0 {} with hbm := Mem.cells 0x100 [1, 2, 3] }
    (s.up && (s.stack 0).up && (s.struckLines 0x100 4).isEmpty && decide s.hbm.Wf &&
      gives (.hbmAccess 0x100 (.read 4) .clean) s (fun s' => s'.hbmResp == { status := 0, data := [1, 2, 3, 0] }) &&
      gives (.hbmAccess 0x101 (.write [0, 8]) .clean) s (fun s' => s'.hbm == Mem.cells 0x100 [1, 0, 8])) = true := by decide

theorem test_hbm_refresh :
    gives (.hbmRefresh 11 { temp := 60, scrub := 2 }) (at0 0 {}) (fun s => (s.stack 11).temp == 60 && (s.stack 11).corr == 2) = true := by
  decide

theorem test_bad_line :
    let s := { at0 0 {} with hbm := Mem.cells 0x100 [1, 2, 3] }
    (gives (.hbmAccess 0x100 (.read 64) .uncorrected) s (fun s' => s'.hbmResp == { status := 0x41, data := List.replicate 64 0 } &&
        s'.bad == [4] && (s'.stack 0).uncorr == 1) &&
      gives (.hbmAccess 0x101 (.write [7]) .clean) { s with bad := [4] } (fun s' => s'.bad == [] && s'.hbm == Mem.cells 0x101 [7])) =
      true := by decide

/-- A request of device 9 to this one. -/
def msg0 (b : LinkBody) : Msg :=
  { id := 1, vc := 0, resp := false, dst := 0, dstNode := 0x8000, src := 9, srcNode := 0, body := b, wire := [], buf := none }

/-- One row of n bytes. -/
def row1 (a n : Nat) : RowSpan := { base := a, rows := 1, stride := 0, bytes := n }

/-- The small block with such a request waiting on link 3. -/
def asked (b : LinkBody) : State :=
  { plans (at0 0 {}) with links := (List.replicate 32 Link.reset).set 3 { Link.reset with rxq := [msg0 b] } }

theorem test_remote_access :
    (gives (.remoteAccess 3 (msg0 (.dmaWrite 0 0x1000 [5, 6] (row1 0x1000 2)))) (asked (.dmaWrite 0 0x1000 [5, 6] (row1 0x1000 2)))
        (fun s => s.hbm == Mem.cells 0x1000 [5, 6] && (s.link 3).rxq == []) &&
      gives (.remoteAccess 3 (msg0 (.dmaWrite 1 0x1000 [5, 6] (row1 0x1000 2)))) (asked (.dmaWrite 1 0x1000 [5, 6] (row1 0x1000 2)))
        (fun s => s.hbm == [] && (s.link 3).rxq == [])) = true ∧
    gives (.remoteAccess 3 (msg0 (.atomic 0 0x2000 0 5))) (asked (.atomic 0 0x2000 0 5)) (fun s => s.exactOf 0x2000 4 == 5) = true ∧
    ((asked (.dmaRead 0 0x1000 4 (row1 0x1000 4))).dmaRegion 0 0x1000 4 false && (asked (.atomic 0 0x2000 0 5)).atomRegion 0 0x2000 4) = true := by
  decide

/-! ## The array -/

/-- Tile 0's array changed. -/
def arr0 (g : ArrayU → ArrayU) : State → State := tile0 fun T => { T with au := g T.au }

/-- A held block of ones, loaded in a mode. -/
def ones (m : Nat) : Held := { mode := some m, data := List.replicate 64 (List.replicate 64 1), exps := List.replicate 128 0 }

/-- Clause 0 over tiles 1 and 0, in gangs of a rows and b columns. -/
def gang (a b : Nat) (s : State) : State :=
  { weaveMod (fun w => { w with clauses := [{ id := 0, gangA := a, gangB := b, members := [1, 0] }] }) s with
    tiles := s.tiles.modify 1 fun T => { T with clause := some 0 } }

theorem test_aopen : Works 0x20 { a := true, imm := 0x7 } { a := 4, imm := 2 } .aopen (at0 0x20 { a := 4, imm := 2 })
      (fun x => !x.T.au.isOpen && !x.ganged) (fun s => pcIs 1 s && (s.tile 0).au.isOpen && (s.tile 0).au.eref == 5 &&
        (((s.tile 0).au.acc.getD 63 [])[63]?).map (·.final true) == some 0) ∧
    Works 0x20 { a := true, imm := 0x7 } { imm := 0 } .aopen (arr0 (fun u => { u with opens := [(1, 0)] }) (gang 1 2 (at0 0x20 { imm := 0 })))
      (fun x => !x.T.au.isOpen && x.ganged && gangPos x.cr x.member == (0, 1)) (fun s => (s.tile 0).au.isOpen && (s.tile 0).au.mode == 1 &&
        (s.tile 0).au.opens == []) :=
  ⟨works (by decide), works (by decide)⟩

theorem test_aopen_faults : Works 0x20 { a := true, imm := 0x7 } { imm := 0 } .aopen (arr0 (·.openTile 0 0 0) (at0 0x20 { imm := 0 }))
      (fun x => x.T.au.isOpen && x.T.au.owner == 0) (fun s => faultIs 2 s && (s.tile 0).au.faultCause == 1) ∧
    Works 0x20 { a := true, imm := 0x7 } { a := 8, imm := 2 } .aopen
      (small (wordOf 0x20 { a := 8, imm := 2 }) (phrase0.ws 8 255)) (fun x => !x.T.au.isOpen && !x.ganged)
      (fun s => faultIs 2 s && (s.tile 0).au.faultCause == 6) :=
  ⟨works (by decide), works (by decide)⟩

theorem test_aldh : Works 0x21 { a := true, b := true, imm := 0x7 } { a := 6, b := 0, imm := 4 } .aldh
    (sram64 [1] (at0 0x21 { a := 6, b := 0, imm := 4 }))
    (fun x => !x.T.au.isOpen && x.T.au.loading == none && x.sramOk 64 (heldBytes 4) 64)
    (fun s => pcIs 1 s && ((s.tile 0).au.loading).map (fun h => (h.mode, h.data.length, (h.data.getD 0 []).take 2)) ==
      some (some 4, 64, [1, 0])) := works (by decide)

theorem test_held_load_complete :
    gives (.heldLoadComplete 0) (arr0 (fun u => { u with loading := some (ones 0) }) (at0 0 {}))
      (fun s => (s.tile 0).au.held1.mode == some 0 && (s.tile 0).au.held0.mode == none && (s.tile 0).au.loading == none) = true := by
  decide

theorem test_amac : Works 0x22 { a := true, b := true, c := true, imm := 0x3FFF } { a := 6, c := 6, imm := 0x102 } .amac
    (arr0 (fun u => { u.openTile 0 0 0 with held0 := ones 0 }) (sram64 [5, 0xFE] (at0 0x22 { a := 6, c := 6, imm := 0x102 })))
    (fun x => x.T.au.isOpen && (x.T.au.held x.T.au.active).mode == some 0 && x.gangCount 1 + 1 ≤ 65536 && x.amacBad 0 1 == none &&
      gangPos x.cr x.member == (0, 0))
    (fun s => pcIs 1 s && (((s.tile 0).au.acc.getD 1 [])[63]?).map (fun a => (a.final false, a.count)) == some (3, 1) &&
      (((s.tile 0).au.acc.getD 0 [])[63]?).map (fun a => (a.final false, a.count)) == some (0, 0)) := works (by decide)

/-- One multicast row whose first element is 5. -/
def row5 : StreamRow := { elems := 5 :: List.replicate 63 0, exps := [] }

theorem test_amac_multicast : Works 0x22 { a := true, b := true, c := true, imm := 0x3FFF } { imm := 2 } .amac
      (arr0 (fun u => { u.openTile 0 0 0 with held0 := ones 0, rows := [(0, [row5])] }) (gang 1 2 (at0 0x22 { imm := 2 })))
      (fun x => gangPos x.cr x.member == (0, 1)) (fun s => pcIs 1 s && (s.tile 0).au.rows == [] &&
        (((s.tile 0).au.acc.getD 0 [])[7]?).map (·.final false) == some 5) ∧
    Works 0x22 { a := true, b := true, c := true, imm := 0x3FFF } { imm := 2 } .amac
      (arr0 (fun u => { u.openTile 0 0 0 with held0 := ones 0, rows := [(1, [row5])] }) (gang 1 2 (at0 0x22 { imm := 2 })))
      (fun x => gangPos x.cr x.member == (0, 1)) (fun s => pcIs 1 s && (s.tile 0).au.rows == [] && (s.tile 0).au.isOpen) :=
  ⟨works (by decide), works (by decide)⟩

theorem test_mac_sums : (row5.elems.length = 64 * chunksOf 0 ∧ (ones 0).data.length = 64 * chunksOf 0) ∧
    ((pushRow 0 0 (ones 0) row5 (List.replicate 64 Acc.zero))[9]?).map (·.final false) = some 5 := by decide

theorem test_block_partials : [(3, -128, 0), (3, 1, 0), (3, -20, -3), (3, -20, -5), (5, -20, -5)].map
    (fun (p : Int × Int × Int) => ((Acc.zero.addBlock p.1 p.2.1 p.2.2 0).inv, (Acc.zero.addBlock p.1 p.2.1 p.2.2 0).acc)) =
      [(true, 0), (true, 0), (false, 6), (false, 2), (false, 2)] := by decide

theorem test_array_faults : Works 0x22 { a := true, b := true, c := true, imm := 0x3FFF } { imm := 2 } .amac (at0 0x22 { imm := 2 })
      (fun x => !x.T.au.isOpen) (fun s => faultIs 2 s && (s.tile 0).au.faultCause == 2) ∧
    Works 0x22 { a := true, b := true, c := true, imm := 0x3FFF } { imm := 2 } .amac
      (arr0 (fun u => { u.openTile 0 0 0 with held0 := ones 0, acc := [[{ Acc.zero with count := 65536 }]] }) (at0 0x22 { imm := 2 }))
      (fun x => decide (65536 < x.gangCount 0 + 1)) (fun s => faultIs 2 s && (s.tile 0).au.faultCause == 3) ∧
    Works 0x23 { a := true, b := true, imm := 0xFF03 } {} .adrn (at0 0x23 {}) (fun x => !x.T.au.isOpen)
      (fun s => faultIs 2 s && (s.tile 0).au.faultCause == 2) :=
  ⟨works (by decide), works (by decide), works (by decide)⟩

theorem test_adrn_sends : Works 0x23 { a := true, b := true, imm := 0xFF03 } {} .adrn
    (arr0 (fun u => { u.openTile 0 0 0 with acc := [[{ Acc.zero with stack := [7], count := 1 }]] }) (gang 2 1 (at0 0x23 {})))
    (fun x => gangPos x.cr x.member == (1, 0)) (fun s => pcIs 1 s && (s.tile 0).au.sums == [[[(7, false)]]] && !(s.tile 0).au.isOpen) :=
  works (by decide)

theorem test_gang_combine :
    let s := gang 2 1 (arr0 (fun u => { u with sums := [[[(7, false)]]] }) (at0 0 {}))
    (s.gangLeaves 1 == [0] && s.tileUp 1 && gives (.gangCombine 1) s (fun s => (s.tile 1).au.sums == [[[(7, false)]]] &&
      (s.tile 0).au.sums == [])) = true := by decide

theorem test_adrn : Works 0x23 { a := true, b := true, imm := 0xFF03 } { a := 6, b := 8 } .adrn
    (arr0 (fun u => { u.openTile 0 0 0 with acc := [{ Acc.zero with stack := [2 ^ 40], count := 1 } :: List.replicate 63 Acc.zero] })
      (small (wordOf 0x23 { a := 6, b := 8 }) (phrase0.ws 8 256)))
    (fun x => gangPos x.cr x.member == (0, 0) && decide (x.cr.gangA ≤ 1) && (List.range 64).all fun r => x.sramOk (x.drainRow r) 256 4)
    (fun s => sramIs 64 [0xFF, 0xFF, 0xFF, 0x7F, 0] s && !(s.tile 0).au.isOpen && (s.tile 0).au.sat) := works (by decide +kernel)

/-! ## Vector instructions -/

/-- The small block with an instruction whose phrase holds l in the lanes of v4. -/
def lanes4 (op : BitVec 8) (f : Fields) (l : List (BitVec 32)) : State := small (wordOf op f) (phrase0.wv 4 (l ++ List.replicate 62 0))

theorem test_vadd : Works 0x30 use2 { d := 8, a := 3, b := 1, imm := 10 } .vadd (at0 0x30 { d := 8, a := 3, b := 1, imm := 10 }) any
      (fun s => vIs 8 [0x7FFFFFFF, 0x7FFFFFFF, 0] s && (s.phraseAt 0 0).map (·.vflags) == some 8) ∧
    Works 0x30 use2 { d := 8, a := 4, b := 4 } .vadd (lanes4 0x30 { d := 8, a := 4, b := 4 } [0x3F800001, 0xBF800000]) any
      (vIs 8 [0x40000001, 0xC0000000, 0]) :=
  ⟨works (by decide), works (by decide)⟩

theorem test_vsub : Works 0x31 use2 { d := 8, a := 2, b := 1, imm := 2 } .vsub (at0 0x31 { d := 8, a := 2, b := 1, imm := 2 }) any
      (vIs 8 [0xFFFFFFF3, 0xFFFFFFF3, 0]) ∧
    Works 0x31 use2 { d := 8, a := 4, b := 4, imm := 4 } .vsub (lanes4 0x31 { d := 8, a := 4, b := 4, imm := 4 } [1, 2])
      (fun x => x.rctxKey == none) (faultIs 10) :=
  ⟨works (by decide), works (by decide)⟩

theorem test_vmul : Works 0x32 use2 { d := 8, a := 2, b := 1, imm := 2 } .vmul (at0 0x32 { d := 8, a := 2, b := 1, imm := 2 }) any
      (vIs 8 [0xFFFFFFDC, 0xFFFFFFDC, 0]) ∧
    Works 0x32 use2 { d := 8, a := 4, b := 4, imm := 1 } .vmul (lanes4 0x32 { d := 8, a := 4, b := 4, imm := 1 } [0x40003FC0, 0])
      any (vIs 8 [0x40804010, 0, 0]) :=
  ⟨works (by decide), works (by decide)⟩

theorem test_vfma : Works 0x33 { use2 with c := true } { d := 8, a := 2, b := 1, c := 3, imm := 2 } .vfma
    (at0 0x33 { d := 8, a := 2, b := 1, c := 3, imm := 2 }) any (vIs 8 [0x7FFFFFDB, 0x7FFFFFDB, 0]) := works (by decide)

theorem test_vdiv : Works 0x34 use2 { d := 8, a := 4, b := 5 } .vdiv
    (small (wordOf 0x34 { d := 8, a := 4, b := 5 })
      ((phrase0.wv 4 (List.replicate 64 0x3F800000)).wv 5 (0x40400000 :: List.replicate 63 0x40000000))) any
    (vIs 8 [0x3EAAAAAB, 0x3F000000, 0]) := works (by decide)

theorem test_vsqrt : Works 0x35 { use2 with b := false } { d := 8, a := 4 } .vsqrt
    (lanes4 0x35 { d := 8, a := 4 } [0x40000000, 0x40800000]) any (vIs 8 [0x3FB504F3, 0x40000000, 0]) := works (by decide +kernel)

theorem test_rounding : (let x : Exact := { neg := false, m := 11, e := 0, more := false }
    [x.round 1 none, x.round 2 none, x.round 1 (some 0x7FFF), x.round 1 (some 0x8000)] = [6, 3, 6, 5]) := by decide

theorem test_vmin : Works 0x36 { use2 with imm := 0x3 } { d := 8, a := 1, b := 2, imm := 2 } .vmin
    (at0 0x36 { d := 8, a := 1, b := 2, imm := 2 }) any (vIs 8 [0xFFFFFFFC, 0xFFFFFFFC, 0]) := works (by decide)

theorem test_vmax : Works 0x37 { use2 with imm := 0x3 } { d := 8, a := 4, b := 1 } .vmax
    (lanes4 0x37 { d := 8, a := 4, b := 1 } [0xFFC00001, 0x3F800000]) any (vIs 8 [0x7FC00000, 0x3F800000, 0]) := works (by decide)

theorem test_vsel : Works 0x39 { use2 with c := true, imm := 0 } { d := 8, a := 1, b := 2, c := 1 } .vsel
    (at0 0x39 { d := 8, a := 1, b := 2, c := 1 }) any (vIs 8 [0xFFFFFFFC, 9, 0]) := works (by decide)

theorem test_vlane : Works 0x42 { use2 with imm := 0 } { d := 8, a := 4, b := 6 } .vlane
      (lanes4 0x42 { d := 8, a := 4, b := 6 } [11, 12]) any (vIs 8 [11, 12, 0]) ∧
    Works 0x42 { use2 with imm := 0 } { d := 8, a := 4, b := 1 } .vlane (small (wordOf 0x42 { d := 8, a := 4, b := 1 })
      ((phrase0.ws 1 63).wv 4 (11 :: List.replicate 62 0 ++ [13]))) any (vIs 8 [13, 11, 0]) :=
  ⟨works (by decide), works (by decide)⟩

theorem test_vint : Works 0x40 { use2 with imm := 0x70 } { d := 8, a := 2, b := 1, imm := 0x50 } .vint
    (at0 0x40 { d := 8, a := 2, b := 1, imm := 0x50 }) any (vIs 8 [0xFFFFFFFF, 0xFFFFFFFF, 0]) := works (by decide)

theorem test_vmov : Works 0x3F { d := true, a := true, imm := BitVec.allOnes 32, lanewise := true } { d := 8, imm := 2 } .vmov
      (at0 0x3F { d := 8, imm := 2 }) any (vIs 8 [0x100, 0x101, 0]) ∧
    Works 0x3F { d := true, a := true, imm := BitVec.allOnes 32, lanewise := true } { d := 8, imm := 0x80000003 } .vmov
      (at0 0x3F { d := 8, imm := 0x80000003 }) any (vIs 8 [0xFF800000, 0xFF800000, 0]) :=
  ⟨works (by decide), works (by decide)⟩

theorem test_vmov_scalar : Works 0x3F { d := true, a := true, imm := BitVec.allOnes 32, lanewise := true } { d := 8, a := 5, imm := 1 }
      .vmov (at0 0x3F { d := 8, a := 5, imm := 1 }) any (vIs 8 [0xFFFFFFFD, 0xFFFFFFFD, 0]) ∧
    Works 0x3F { d := true, a := true, imm := BitVec.allOnes 32, lanewise := true } { d := 8, a := 1, imm := 0 } .vmov
      (at0 0x3F { d := 8, a := 1, imm := 0 }) any (vIs 8 [9, 9, 0]) :=
  ⟨works (by decide), works (by decide)⟩

/-- Predicate d of the phrase in slot 0 of tile 0. -/
def pIs (d : Nat) (v : BitVec 64) (s : State) : Bool := (s.phraseAt 0 0).map (·.rp d) == some v

theorem test_vcmp : Works 0x38 { use2 with imm := 0x73 } { d := 2, a := 2, b := 1, imm := 0x22 } .vcmp
      (at0 0x38 { d := 2, a := 2, b := 1, imm := 0x22 }) any (pIs 2 3) ∧
    Works 0x38 { use2 with imm := 0x73 } { d := 1, a := 4, b := 4, imm := 0x10 } .vcmp
      (lanes4 0x38 { d := 1, a := 4, b := 4, imm := 0x10 } [0x7FC00000, 0]) any (pIs 1 1) :=
  ⟨works (by decide), works (by decide)⟩

theorem test_vpred : Works 0x41 { d := true, a := true, b := true, imm := 0x7 } { d := 3, a := 0, b := 1, imm := 3 } .vpred
      (at0 0x41 { d := 3, a := 0, b := 1, imm := 3 }) any (pIs 3 0xFFFFFFFFFFFFFFFD) ∧
    Works 0x41 { d := true, a := true, b := true, imm := 0x7 } { d := 3, a := 5, imm := 4 } .vpred (at0 0x41 { d := 3, a := 5, imm := 4 })
      any (pIs 3 0xFFFFFFFFFFFFFFFD) :=
  ⟨works (by decide), works (by decide)⟩

theorem test_vxs : Works 0x43 { d := true, a := true, b := true } { d := 3, a := 2, b := 4 } .vxs (at0 0x43 { d := 3, a := 2, b := 4 }) any
    (sIs 3 0xFFFFFFFC) := works (by decide)

theorem test_vcvt : Works 0x3A { d := true, a := true, imm := 0x00FF01FF, lanewise := true } { d := 8, a := 2, imm := 0x02 } .vcvt
      (at0 0x3A { d := 8, a := 2, imm := 0x02 }) (fun _ => cvtOk 2 0) (vIs 8 [0xC0800000, 0xC0800000, 0]) ∧
    Works 0x3A { d := true, a := true, imm := 0x00FF01FF, lanewise := true } { d := 8, a := 4, imm := 0x20 } .vcvt
      (lanes4 0x3A { d := 8, a := 4, imm := 0x20 } [0x7FC00000, 0xC0200000]) (fun _ => cvtOk 0 2) (vIs 8 [0, 0xFFFFFFFE, 0]) :=
  ⟨works (by decide), works (by decide)⟩

theorem test_vtrn : Works 0x3E { d := true, a := true, imm := 0x73, lanewise := true } { d := 8, a := 4, imm := 0x00 } .vtrn
    (lanes4 0x3E { d := 8, a := 4, imm := 0x00 } [0, 0x7FC00000]) any (vIs 8 [0x3F800000, 0x7FC00000, 0]) := works (by decide)

theorem test_vbx : Works 0x3B { d := true, a := true, b := true, c := true, imm := 0x7, lanewise := true } { d := 9, a := 4, b := 6, c := 8 }
    .vbx (small (wordOf 0x3B { d := 9, a := 4, b := 6, c := 8 })
      ((phrase0.ws 8 256).wv 4 ([0x3F800000, 0xC0000000] ++ List.replicate 62 0)))
    (fun x => x.sramOk 64 64 1 && x.sramOk 256 2 1) (fun s => sramIs 64 [32, 0xC0, 0] s && sramIs 256 [0xFB] s) := works (by decide)

theorem test_vubx : Works 0x3C { use2 with imm := 0x3 } { d := 8, a := 6, b := 8 } .vubx
    (tile0 (fun T => { T with sram := Mem.cells 64 [32, 0xC0] ++ Mem.cells 256 [0xFB] })
      (small (wordOf 0x3C { d := 8, a := 6, b := 8 }) (phrase0.ws 8 256)))
    (fun x => x.sramOk 64 64 1 && x.sramOk 256 2 1) (vIs 8 [0x3F800000, 0xC0000000, 0]) := works (by decide)

theorem test_vred : Works 0x3D { d := true, a := true, b := true, c := true, imm := 0x133 } { d := 9, a := 2, b := 4, imm := 0x102 } .vred
      (at0 0x3D { d := 9, a := 2, b := 4, imm := 0x102 }) any (sIs 9 0xFFFFFFFFFFFFFFEC) ∧
    Works 0x3D { d := true, a := true, b := true, c := true, imm := 0x133 } { d := 9, a := 6, b := 2, c := 10, imm := 0x12 } .vred
      (sram64 [1, 0, 0, 0, 3] (at0 0x3D { d := 9, a := 6, b := 2, c := 10, imm := 0x12 })) (fun x => x.sramOk 64 8 4)
      (fun s => sIs 9 3 s && sIs 10 1 s) :=
  ⟨works (by decide), works (by decide)⟩

theorem test_int_reductions : reduceRow 2 0 [0x7FFFFFFF, 1] = (0x7FFFFFFF, 0, 8) ∧ (reduceRow 2 1 []).2.1 = BitVec.allOnes 64 := by
  decide

/-! ## The osier array -/

/-- An array with a record of two strands: unit 0 in strand 1 with bias 2000, the rest in strand 0, where a list ends its entries being
0; one anchor of 16 bits, where it has anchors. -/
def os0 : Osier :=
  { Osier.reset with present := true, strandCount := 2, strands := [1], bias := [2000], ext := [], bsum := [], asum := [],
                     st := List.replicate 3 false, hasAnchors := false, anchorCount := 1, anchorWidth := 16 }

/-- Tile 0 with a calibrated array. -/
def osi (g : Osier → Osier) : State → State := tile0 fun T => { T with os := g os0, cal := { T.cal with cal := 0 } }

/-- A run of slot 5. -/
def run5 (kind : Nat) (inPhase : Bool) : OsRun :=
  { kind := kind, slot := 5, rounds := 1, stale := 0, stepBeta := false, strand := 1, inPhase := inPhase, entry := 0x3F800000,
    ctx := phrase0.rctx, thread := 0, ctr := 0, latched := List.replicate 512 0, pc := 0, word := 0 }

theorem test_osel : Works 0x50 { imm := 0x7 } { imm := 1 } .osel (osi id (at0 0x50 { imm := 1 }))
      (fun x => x.T.os.run == none && x.T.os.present && x.s.policy.det != 1 && x.T.cal.cal == 0)
      (fun s => pcIs 1 s && (s.tile 0).os.run.map (fun r => (r.kind, r.strand)) == some (3, 1)) ∧
    Works 0x50 { imm := 0x7 } {} .osel (at0 0x50 {}) (fun x => x.T.os.run == none && !x.T.os.present) (faultIs 8) :=
  ⟨works (by decide), works (by decide)⟩

theorem test_orun : Works 0x51 { a := true, imm := 0x1F3 } { a := 4 } .orun (osi id (at0 0x51 { a := 4 }))
      (fun x => x.T.os.run == none && x.T.os.present) (fun s => pcIs 1 s && (s.tile 0).os.run.map (fun r => (r.kind, r.rounds)) == some (0, 5)) ∧
    Works 0x51 { a := true, imm := 0x1F3 } { a := 4 } .orun (osi (fun o => { o with run := some (run5 0 true) }) (at0 0x51 { a := 4 }))
      (fun x => x.T.os.run.isSome) (pcIs 0) :=
  ⟨works (by decide), works (by decide)⟩

theorem test_orun_none : Works 0x51 { a := true, imm := 0x1F3 } { a := 3 } .orun (at0 0x51 { a := 3 }) any (pcIs 1) ∧
    Works 0x51 { a := true, imm := 0x1F3 } { a := 4 } .orun (at0 0x51 { a := 4 }) (fun x => !x.T.os.present) (faultIs 8) :=
  ⟨works (by decide), works (by decide)⟩

theorem test_phase_stop_release :
    let s := osi (fun o => { o with run := some (run5 0 false) }) (at0 0 {})
    (s.tileUp 0 && calLetsPhase (run5 0 false) 0 && s.phaseStopOpen 0 0 && (s.tile 0).os.events == [] &&
      gives (.phaseStopRelease 0) s (fun s => (s.tile 0).os.run.map (·.inPhase) == some true && (s.tile 0).os.phase == 0)) = true := by
  decide +kernel

theorem test_strand_phase_complete :
    gives (.strandPhaseComplete 0) (osi (fun o => { o with run := some (run5 3 true) }) (at0 0 {}))
      (fun s => (s.tile 0).os.phase == 1 && (s.tile 0).os.st.getD 0 false && !(s.tile 0).os.st.getD 1 true) = true := by decide +kernel

/-- A bridge of coupling 3 x 2 between unit 1 of tile 1 and unit 2 of tile 0. -/
def bridged : State → State := weaveMod fun w => { w with bridges := [{ ta := 1, tb := 0, ua := 1, ub := 2, code := 3, scale := 1 }] }

/-- A spin event of that unit for tile 0: its new state 1, sent in phase 0. -/
def spin0 : SpinEv := { word := 0x80040200, before := 0, target := 0 }

theorem test_spin_event :
    (gives (.spinEvent 0) { osi id (bridged (at0 0 {})) with spins := [spin0] } (fun s => (s.tile 0).os.events == [spin0] && s.spins == []) &&
      gives (.spinEvent 0) { osi (fun o => { o with run := some (run5 2 true), bsum := [0, 0, 0] }) (bridged (at0 0 {})) with spins := [spin0] }
        (fun s => (s.tile 0).os.bsum == [0, 0, 12])) = true := by decide +kernel

theorem test_free_run_latch :
    gives (.freeRunLatch 0 0 []) (osi (fun o => { o with run := some { run5 2 true with rounds := 2 } }) (at0 0 {}))
      (fun s => (s.tile 0).os.st.getD 0 false && !(s.tile 0).os.st.getD 1 true) = true := by decide +kernel

theorem test_ord : Works 0x52 { a := true } { a := 6 } .ord (osi (fun o => { o with st := [true] }) (at0 0x52 { a := 6 }))
    (fun x => !x.ownRun && x.sramOk 64 64 1) (fun s => pcIs 1 s && sramIs 64 [1, 0] s) := works (by decide +kernel)

theorem test_nrd : Works 0x61 { a := true } { a := 6 } .nrd
    (osi (fun o => { o with hasAnchors := true, anchorSt := [true] }) (at0 0x61 { a := 6 }))
    (fun x => x.T.os.hasAnchors && x.sramOk 64 8 1) (fun s => pcIs 1 s && sramIs 64 [1, 0] s) := works (by decide +kernel)

theorem test_owf : Works 0x53 { a := true, b := true, imm := 0x3FF } { a := 6, b := 2, imm := 1 } .owf
      (osi id (sram64 [0xFE, 0xFF] (at0 0x53 { a := 6, b := 2, imm := 1 }))) (fun x => x.T.os.present && x.sramOk 64 2 2 && !x.ownRun)
      (fun s => pcIs 1 s && (s.tile 0).os.ext.take 4 == [0, 0, -2, 0]) ∧
    Works 0x53 { a := true, b := true, imm := 0x3FF } { a := 6, b := 2, imm := 1 } .owf
      (osi (fun o => { o with run := some (run5 0 true) }) (sram64 [0xFE, 0xFF] (at0 0x53 { a := 6, b := 2, imm := 1 })))
      (fun x => x.T.os.present && !x.ownRun)
      (fun s => pcIs 1 s && (s.tile 0).os.writes == [{ isBias := false, first := 2, vals := [-2] }]) :=
  ⟨works (by decide +kernel), works (by decide +kernel)⟩

theorem test_obias : Works 0x56 { a := true } { a := 6 } .obias (osi id (at0 0x56 { a := 6 }))
      (fun x => x.T.os.present && x.sramOk 64 1024 2) (fun s => pcIs 1 s && (s.tile 0).os.bias.take 2 == [0, 0]) ∧
    Works 0x56 { a := true } { a := 6 } .obias (osi id (sram64 [0, 0x08] (at0 0x56 { a := 6 })))
      (fun x => x.T.os.present && x.sramOk 64 1024 2) (faultIs 8) :=
  ⟨works (by decide +kernel), works (by decide +kernel)⟩

theorem test_obank : Works 0x54 { a := true } { a := 6 } .obank (osi (fun o => { o with idleBad := true }) (at0 0x54 { a := 6 }))
    (fun x => x.T.os.loading == none && !x.T.os.swapPending && x.sramOk 64 262176 1)
    (fun s => pcIs 1 s && (s.tile 0).os.loading.isSome && !(s.tile 0).os.idleBad) := works (by decide +kernel)

theorem test_oswap : Works 0x55 {} {} .oswap (osi id (at0 0x55 {})) (fun x => x.T.os.present && !x.T.os.idleBad && x.T.os.run == none)
      (fun s => pcIs 1 s && (s.tile 0).os.bank) ∧
    Works 0x55 {} {} .oswap (osi (fun o => { o with idleBad := true }) (at0 0x55 {})) (fun x => x.T.os.present && x.T.os.idleBad) (faultIs 8) :=
  ⟨works (by decide +kernel), works (by decide +kernel)⟩

theorem test_oss : Works 0x57 { a := true } { a := 6 } .oss (osi id (sram64 [2] (at0 0x57 { a := 6 })))
      (fun x => x.T.os.run == none && x.sramOk 64 64 1) (fun s => pcIs 1 s && (s.tile 0).os.st.take 3 == [false, true, false]) ∧
    Works 0x57 { a := true } { a := 6 } .oss (osi (fun o => { o with run := some (run5 0 true) }) (at0 0x57 { a := 6 }))
      (fun x => x.T.os.run.isSome) (pcIs 0) :=
  ⟨works (by decide +kernel), works (by decide +kernel)⟩

theorem test_nwr : Works 0x62 { a := true } { a := 4 } .nwr (osi (fun o => { o with hasAnchors := true }) (at0 0x62 { a := 4 }))
      (fun x => x.T.os.run == none && x.T.os.hasAnchors) (fun s => pcIs 1 s && (s.tile 0).os.anchorSt == [true]) ∧
    Works 0x62 { a := true } { a := 4 } .nwr (at0 0x62 { a := 4 }) (fun x => x.T.os.run == none && !x.T.os.hasAnchors) (faultIs 9) :=
  ⟨works (by decide +kernel), works (by decide +kernel)⟩

theorem test_nld : Works 0x60 { a := true } { a := 6 } .nld
      (osi (fun o => { o with hasAnchors := true }) (sram64 [0xFF, 0xFF, 7] (at0 0x60 { a := 6 })))
      (fun x => x.T.os.run == none && x.T.os.hasAnchors && x.sramOk 64 (2 * (1 + 513)) 2)
      (fun s => pcIs 1 s && (s.tile 0).os.anchorBias == [-1] && (s.tile 0).os.anchorCoef.take 2 == [7, 0]) ∧
    Works 0x60 { a := true } { a := 6 } .nld (at0 0x60 { a := 6 }) (fun x => x.T.os.run == none && !x.T.os.hasAnchors) (faultIs 9) :=
  ⟨works (by decide +kernel), works (by decide +kernel)⟩

theorem test_obank_load_complete :
    let s := osi (fun o => { o with loading := some [1, 5] }) (at0 0 {})
    (s.tileUp 0 && gives (.obankLoadComplete 0) s (fun s => (s.tile 0).os.loading == none && !(s.tile 0).os.bank)) = true := by
  decide +kernel

/-! ## Random instructions, stops, folds, tallies and holds -/

/-- Clause 0 is granted key slot 0. -/
def keyed (s : State) : State :=
  { weaveMod (fun w => { w with pgkeys := [{ slot := 0, mask := 1, nonce := [], cipher := [], tag := [], key := List.replicate 32 7 }] }) s
    with sec := { s.sec with store := [{ k := 4, key := List.replicate 32 7, digest := [], torn := false }] } }

theorem test_rdraw : Works 0x70 { d := true, a := true, b := true, c := true, imm := 0x7F, lanewise := true } { d := 8, a := 4, b := 6, c := 10 }
      .rdraw (keyed (at0 0x70 { d := 8, a := 4, b := 6, c := 10 })) (fun x => (x.s.pgKey x.c 0).isSome) (pcIs 1) ∧
    Works 0x70 { d := true, a := true, b := true, c := true, imm := 0x7F, lanewise := true } { d := 8, a := 4, b := 6, c := 10 } .rdraw
      (at0 0x70 { d := 8, a := 4, b := 6, c := 10 }) (fun x => x.s.pgKey x.c 0 == none) (faultIs 10) :=
  ⟨works (by decide +kernel), works (by decide +kernel)⟩

theorem test_rdraw_lane : Works 0x70 { d := true, a := true, b := true, c := true, imm := 0x7F, lanewise := true }
    { d := 8, a := 4, b := 6, c := 10, imm := 0x10 } .rdraw (keyed (at0 0x70 { d := 8, a := 4, b := 6, c := 10, imm := 0x10 }))
    (fun x => !x.laneDrawWaits true)
    (fun s => pcIs 1 s && (s.phraseAt 0 0).map (fun ph => ph.ctr.take 3) == some [1, 1, 0]) := works (by decide +kernel)

theorem test_rctx : Works 0x71 { a := true, b := true, c := true, imm := 0x1F } { a := 4, b := 6, c := 1 } .rctx
    (keyed (at0 0x71 { a := 4, b := 6, c := 1 })) (fun x => (x.s.pgKey x.c 0).isSome)
    (fun s => pcIs 1 s && (s.phraseAt 0 0).map (fun ph => (ph.rctx.slot, ph.rctx.stream, ph.rctx.pos.take 2)) == some (some 0, 5, [73, 73])) :=
  works (by decide +kernel)

theorem test_rdrop : Works 0x72 { d := true, a := true, b := true, c := true, imm := 0xFFFFFF1F, lanewise := true }
      { d := 2, a := 4, b := 6, c := 10 } .rdrop (keyed (at0 0x72 { d := 2, a := 4, b := 6, c := 10 })) (fun x => (x.s.pgKey x.c 0).isSome)
      (fun s => pcIs 1 s && pIs 2 3 s) ∧
    Works 0x72 { d := true, a := true, b := true, c := true, imm := 0xFFFFFF1F, lanewise := true } { d := 2, a := 4, b := 6, c := 10, imm := 0x10 }
      .rdrop (keyed (at0 0x72 { d := 2, a := 4, b := 6, c := 10, imm := 0x10 })) (fun x => !x.laneDrawWaits true) (pcIs 1) :=
  ⟨works (by decide +kernel), works (by decide +kernel)⟩

theorem test_lane_wrap :
    let d := (drawBlock (List.replicate 32 7) true 0 0 5 0 { n := 0, ctr := [2 ^ 40 - 1], wrapped := false }).2
    (d.n, d.ctr, d.wrapped) = (1, [0], true) := by decide +kernel

theorem test_stopn : Works 0x82 { a := true, imm := 0xF } { a := 6, imm := 15 } .stopn (at0 0x82 { a := 6, imm := 15 })
      (fun x => x.T.arr.getD 15 [] == []) (fun s => pcIs 1 s && (s.tile 0).partc.getD 15 0 == 64 && (s.tile 0).partc.getD 14 0 == 1) ∧
    Works 0x82 { a := true, imm := 0xF } { a := 8 } .stopn (small (wordOf 0x82 { a := 8 }) (phrase0.ws 8 65))
      (fun x => x.T.arr.getD 0 [] == []) (faultIs 11) :=
  ⟨works (by decide), works (by decide)⟩

theorem test_arrive : Works 0x80 { imm := 0xF } { imm := 3 } .arrive (tile0 (fun T => { T with arr := T.arr.set 3 [0] }) (at0 0x80 { imm := 3 }))
    (fun x => !x.s.outstanding 0 0) (fun s => pcIs 1 s && (s.tile 0).arr.getD 3 [] == [0, 1] &&
      (s.phraseAt 0 0).map (fun ph => ph.arrived.getD 3 none) == some (some 1)) := works (by decide)

theorem test_wait : Works 0x81 { imm := 0xF } { imm := 3 } .wait (at0 0x81 { imm := 3 }) any (faultIs 11) ∧
    Works 0x81 { imm := 0xF } { imm := 3 } .wait (small (wordOf 0x81 { imm := 3 }) { phrase0 with arrived := List.replicate 16 (some 0) })
      (fun x => x.s.genOf x.c 3 == 0) (pcIs 0) :=
  ⟨works (by decide), works (by decide)⟩

theorem test_wait_over : Works 0x81 { imm := 0xF } { imm := 3 } .wait
    { small (wordOf 0x81 { imm := 3 }) { phrase0 with arrived := List.replicate 16 (some 0) } with
      clauses := [{ id := 0, gens := List.replicate 16 1, run := none, frozen := false, satMask := 0, struck := none, uncorr := false }] }
    (fun x => x.s.genOf x.c 3 == 1) (pcIs 1) := works (by decide)

theorem test_stop_generation :
    let s := tile0 (fun T => { T with arr := T.arr.set 3 [0, 1] }) (at0 0 {})
    (gives (.stopGenerationComplete 0 3) s (fun s => s.genOf 0 3 == 1 && s.genOf 0 2 == 0) &&
      gives (.stopGenerationComplete 0 2) s (fun s => s.genOf 0 2 == 0)) = true := by decide

/-- A fold slot of clause 0 over tiles 0 (the root) and 1. -/
def foldRec0 (kind : Nat) : FoldRec :=
  { slot := 5, clause := 0, kind := kind, scale := 0, nodes := [{ node := 0, parent := 0xFFFF }, { node := 1, parent := 0 }] }

/-- The small block with that fold. -/
def folded (kind : Nat) : State → State := weaveMod fun w => { w with folds := [foldRec0 kind] }

theorem test_fsend : Works 0x90 { a := true, b := true, imm := 0x7FF, lanewise := true } { a := 2, b := 6, imm := 5 } .fsend
      (folded 0 (at0 0x90 { a := 2, b := 6, imm := 5 }))
      (fun x => x.s.foldRec 5 == some (foldRec0 0) && (foldRec0 0).indexOf 0 == some 0 && decide (0 < (x.s.foldSt (foldRec0 0)).nodes.length))
      (fun s => pcIs 1 s && ((s.foldSt (foldRec0 0)).nodes.getD 0 FoldNode.empty).own2.map (fun e => (e.g.base, e.g.vals.take 3)) ==
        [(64, [-4, -4, 0])]) ∧
    Works 0x90 { a := true, b := true, imm := 0x7FF, lanewise := true } { a := 2, b := 4, imm := 5 } .fsend
      (folded 0 (at0 0x90 { a := 2, b := 4, imm := 5 })) (fun x => x.s.foldRec 5 == some (foldRec0 0)) (faultIs 12) :=
  ⟨works (by decide +kernel), works (by decide +kernel)⟩

/-- A group of one value in every lane. -/
def groupOf (base : Nat) (v : Int) : Group := { base := base, vals := List.replicate 64 v, nan := 0, pinf := 0, ninf := 0, sat := false }

/-- The group within a fold. -/
def fgroup (base : Nat) (v : Int) : FGroup := { g := groupOf base v, tile := 0, slot := 0, pc := 0, hi := 0, stamp := 0 }

/-- A fold at work: what its two nodes hold for the summing pass. -/
def foldAt (own0 own1 sent : List FGroup) : FoldSt :=
  { slot := 5, nodes := [{ FoldNode.empty with own2 := own0 }, { FoldNode.empty with own2 := own1, up2 := sent }], exps := [], sent := [],
    results := [], mismatch := false }

theorem test_fold_combine :
    let s := folded 0 (at0 0 {})
    (gives (.foldGroupCombine 5 1 2) { s with folds := [foldAt [] [fgroup 64 3] []] }
        (fun s => ((s.foldSt (foldRec0 0)).nodes.getD 1 FoldNode.empty).up2.map (fun e => (e.g.base, e.g.vals.take 1)) == [(64, [3])]) &&
      gives (.foldGroupCombine 5 0 2) { s with folds := [foldAt [fgroup 64 4] [] [fgroup 64 3]] }
        (fun s => (s.foldSt (foldRec0 0)).results.map (fun g => (g.base, g.vals.take 1)) == [(64, [7])]) &&
      gives (.foldGroupCombine 5 0 2) { s with folds := [foldAt [fgroup 128 4] [] [fgroup 64 3]] }
        (fun s => (s.foldSt (foldRec0 0)).mismatch && (s.foldSt (foldRec0 0)).results == [])) = true := by decide +kernel

theorem test_fold_broadcast :
    gives (.foldExponentBroadcast 5) { folded 2 (at0 0 {}) with folds := [{ foldAt [] [] [] with exps := [groupOf 64 0] }] }
      (fun s => (s.foldSt (foldRec0 2)).exps == []) = true := by decide +kernel

theorem test_frecv : Works 0x91 { d := true, b := true, imm := 0x3FF } { d := 8, b := 6, imm := 5 } .frecv
      { folded 0 (at0 0x91 { d := 8, b := 6, imm := 5 }) with folds := [{ foldAt [] [] [] with results := [groupOf 64 (-2)] }] }
      (fun x => x.s.foldRec 5 == some (foldRec0 0)) (fun s => pcIs 1 s && vIs 8 [0xFFFFFFFE, 0xFFFFFFFE, 0] s) ∧
    Works 0x91 { d := true, b := true, imm := 0x3FF } { d := 8, b := 4, imm := 5 } .frecv
      { folded 0 (at0 0x91 { d := 8, b := 4, imm := 5 }) with folds := [{ foldAt [] [] [] with results := [groupOf 64 (-2)] }] }
      (fun x => x.s.foldRec 5 == some (foldRec0 0)) (faultIs 12) :=
  ⟨works (by decide +kernel), works (by decide +kernel)⟩

theorem test_fold_results : (foldResult (foldRec0 0) (groupOf 64 0) (groupOf 64 (2 ^ 31))).vals.getD 63 0 = 2 ^ 31 - 1 ∧
    (foldResult (foldRec0 0) (groupOf 64 0) (groupOf 64 (2 ^ 31))).sat = true := by decide +kernel

theorem test_trd : Works 0xA0 { d := true, imm := 0x7F } { d := 9, imm := 7 } .trd
      (weaveMod (fun w => { w with policy := { tallyVisible := 1 } })
        (tile0 (fun T => { T with cnt := T.cnt.set 7 99 }) (at0 0xA0 { d := 9, imm := 7 }))) (fun x => x.s.policy.tallyVisible != 0) (sIs 9 99) ∧
    Works 0xA0 { d := true, imm := 0x7F } { d := 9, imm := 7 } .trd (at0 0xA0 { d := 9, imm := 7 }) (fun x => x.s.policy.tallyVisible == 0)
      (faultIs 13) :=
  ⟨works (by decide), works (by decide)⟩

theorem test_tmark : Works 0xA1 { imm := 0xFFFF } { imm := 5 } .tmark
    { at0 0xA1 { imm := 5 } with tly := { Tly.reset with cfg := { TallyCfg.reset with events := [0x8005] } } } any
    (fun s => pcIs 1 s && (s.tile 0).cnt.getD 0 0 == 1) := works (by decide)

theorem test_hold : Works 0xB0 { imm := 0xFF } { imm := 1 } .hold (at0 0xB0 { imm := 1 }) (fun x => !x.T.dbg.holdEn)
      (fun s => pcIs 1 s && !(s.tile 0).dbg.held) ∧
    Works 0xB0 { imm := 0xFF } { imm := 1 } .hold (tile0 (fun T => { T with dbg := { T.dbg with holdEn := true } }) (at0 0xB0 { imm := 1 }))
      (fun x => x.T.dbg.holdEn) (fun s => pcIs 1 s && (s.tile 0).dbg.held) :=
  ⟨works (by decide), works (by decide)⟩

/-! ## The host, runs and the weave -/

/-- The small block with queue 3 at work: both rings of 16 entries, two descriptors to fetch. -/
def queued : State :=
  let s := at0 0 {}
  { s with queues := s.queues.set 3 { Queue.reset with enable := true, sqLog2 := 4, cqLog2 := 4, sq := 0x1000, cq := 0x2000,
                                                       sqTail := 2, phase := true } }

theorem test_queue_enable : (at0 0 {}).hostUp = true ∧
    gives (.queueEnable 3 0x80440000) (at0 0 {}) (fun s => (s.queue 3).enable && (s.queue 3).phase && (s.queue 3).sqLog2 == 4) = true ∧
    gives (.queueEnable 3 0x80340000) (at0 0 {}) (fun s => !(s.queue 3).enable && (s.queue 3).err && s.dev.irqStat == 0x40) = true := by
  decide

theorem test_queue_disable : gives (.queueDisable 3 0x00440000) queued (fun s => !(s.queue 3).enable && (s.queue 3).cqTail == 0) = true := by
  decide

theorem test_doorbells :
    (gives (.submissionDoorbell 24 15) queued (fun s => (s.queue 3).sqTail == 15) &&
      gives (.submissionDoorbell 24 16) queued (fun s => (s.queue 3).err && (s.queue 3).sqTail == 2) &&
      gives (.completionDoorbell 0x118 15) queued (fun s => (s.queue 3).cqDoor == 15) &&
      gives (.completionDoorbell 0x118 16) queued (fun s => (s.queue 3).err) &&
      gives (.completionDoorbell 0x118 5) (at0 0 {}) (fun s => (s.queue 3).cqDoor == 0)) = true := by decide

theorem test_command_fetch : queued.mayFetch 3 = true ∧
    gives (.commandFetch 3 (.ok ([0x03, 0, 9, 0, 0, 0, 0, 0] ++ List.replicate 56 0))) queued (fun s =>
      s.started.map (fun c => (c.queue, c.cid, c.opcode, c.fin)) == [(3, 9, 3, none)] && (s.queue 3).sqHead == 1) = true ∧
    gives (.commandFetch 3 (.ok ([0x7F, 0, 9, 0, 0, 0, 0, 0] ++ List.replicate 56 0))) queued (fun s =>
      s.started.map (fun c => c.fin.map (·.status)) == [some 0x73]) = true ∧
    gives (.commandFetch 3 (.fail 0x1000)) queued (fun s => s.started.map (fun c => c.fin.map (·.status)) == [some 0x42]) = true := by
  decide +kernel

theorem test_completion_record :
    gives (.completionRecordWrite 0)
      { queued with started := [{ cmd0 0x03 0 [] with queue := 3, fin := some { status := 1, detail0 := 2, detail1 := 3, detail2 := 4 } }] }
      (fun s => s.started == [] && (s.queue 3).cqTail == 1 && s.out == [Output.hostWrite 0x2000
        [7, 0, 3, 1, 3, 1, 0, 0, 2, 0, 0, 0, 0, 0, 0, 0, 3, 0, 0, 0, 0, 0, 0, 0, 4, 0, 0, 0, 0, 0, 0, 0]]) = true := by decide

theorem test_launch : Carries 0x03 (.launch 0) (cmd 0x03 0 []) (fun s => s.cmd 0 == some (cmd0 0x03 0 []) && (s.phraseAt 0 0).map
      (fun ph => (ph.pc, ph.lanes, ph.base, ph.rs 1, ph.rs 2)) == some (0, 1, 0xFFFE00, 0xFFFE00, 1) &&
      ((s.clauseSt 0).bind (·.run)).map (·.cmd) == some 0) ∧
    Carries 0x03 (.launch 0) (cmd 0x03 1 []) (fin0 0x17 0 0 0) ∧ Carries 0x03 (.launch 0) (cmd 0x03 0 [4]) (fin0 0x72 8 0 0) ∧
    Carries 0x03 (.launch 0) { cmd 0x03 0 [] with alm := { Alm.reset with latched := 1 } } (fin0 0x52 0 0 0) :=
  ⟨carries (by decide +kernel), carries (by decide +kernel), carries (by decide +kernel), carries (by decide +kernel)⟩

theorem test_launch_arguments : Carries 0x03 (.launch 0) { cmd 0x03 0 [0x1000] with hbm := Mem.cells 0x1000 [6, 1] ++ Mem.cells 0x1078 [8] }
    (fun s => (s.phraseAt 0 0).map (fun ph => (ph.rs 16, ph.rs 17, ph.rs 31)) == some (0x106, 0, 8)) := carries (by decide +kernel)

/-- A work item of 3 lanes at the second instruction. -/
def item : WorkItem := { base := 64, lanes := 3, entry := 1, args := List.replicate 16 5, resume := none }

theorem test_phrase_start :
    gives (.phraseStart 0) (tile0 (fun T => { T with wq := [item] }) (at0 0 {})) (fun s => (s.tile 0).wq == [] &&
      (s.phraseAt 0 1).map (fun ph => (ph.pc, ph.lanes, ph.base, ph.rs 31)) == some (1, 3, 64, 5)) = true ∧
    (at0 0 {}).works 0 = true := by decide

theorem test_load_balance_take :
    let s := weaveMod (fun w => { w with policy := { loadBalance := 1 } }) { gang 0 0 (at0 0 {}) with tiles :=
      ((gang 0 0 (at0 0 {})).tiles.modify 1 fun T => { T with wq := [item, item] }) }
    (gives (.loadBalanceTake 0) s (fun s => (s.tile 0).wq == [item] && (s.tile 1).wq == [item]) &&
      gives (.loadBalanceTake 0) (weaveMod (fun w => { w with policy := { loadBalance := 1, det := 1 } }) s)
        (fun s => (s.tile 0).wq == [])) = true := by decide

/-- Clause 0 in a run of command 0. -/
def running (g : ClauseSt → ClauseSt) (s : State) : State :=
  { s with started := [cmd0 0x03 0 []], nextId := 1
           clauses := [g { id := 0, gens := List.replicate 16 0, run := some { cmd := 0, args := [], tStart := 0, gloss := none },
                           frozen := false, satMask := 0, struck := none, uncorr := false }] }

/-- No phrase is live. -/
def ended : State → State := tile0 fun T => { T with slots := List.replicate 64 none }

theorem test_run_complete :
    (gives (.clauseRunComplete 0) (ended (running id (at0 0 {}))) (fin0 0 0 0 0) &&
      gives (.clauseRunComplete 0) (running id (at0 0 {})) (fun s => (s.cmd 0).bind (·.fin) == none) &&
      gives (.clauseRunComplete 0) (ended (running (fun x => { x with satMask := 2 }) (at0 0 {}))) (fin0 0x40 0 2 0) &&
      gives (.clauseRunComplete 0) (ended (running (fun x => { x with uncorr := true, struck := some 0x140 }) (at0 0 {})))
        (fin0 0x41 0x140 0 0)) = true := by decide +kernel

theorem test_run_fault :
    gives (.clauseRunComplete 0) (tile0 (fun T => { T with fault := { valid := true, cause := 3, phrase := 2, pc := 9, detail := 6, addr := 7 } })
      (running (fun x => { x with frozen := true }) (at0 0 {}))) (fin0 0x70 (3 + 2 * 256 + 9 * 2 ^ 32) 6 7) = true := by decide +kernel

theorem test_copy : Carries 0x04 (.copy 0 (.ok [])) { cmd 0x04 0 [0x100, 0x200, 4] with hbm := Mem.cells 0x100 [1, 2, 3, 4] }
      (fun s => fin0 0 0 0 0 s && s.hbm == Mem.cells 0x100 [1, 2, 3, 4] ++ Mem.cells 0x200 [1, 2, 3, 4]) ∧
    Carries 0x04 (.copy 0 (.ok [])) (cmd 0x04 0 [0x100, 0x103, 4]) (fin0 0x72 8 0 0) ∧
    Carries 0x04 (.copy 0 (.ok [])) (cmd 0x04 0 [0x100, 0x103, 0]) (fin0 0 0 0 0) ∧
    Carries 0x04 (.copy 0 (.ok [])) (cmd 0x04 0 [0x100, hbmUserEnd - 3, 4]) (fin0 0x72 0x10 0 0) ∧
    Carries 0x04 (.copy 0 (.ok [])) { cmd 0x04 0 [0x100, 6 * stackSize, 4] with dev := { Dev.reset with ready := true, eastAwake := false } }
      (fin0 0x30 0 0 0) :=
  ⟨carries (by decide +kernel), carries (by decide +kernel), carries (by decide +kernel), carries (by decide +kernel),
    carries (by decide +kernel)⟩

theorem test_copy_host : Carries 0x04 (.copy 0 (.ok [5, 6])) (cmd 0x04 1 [0x100, 0x200, 2])
      (fun s => fin0 0 0 0 0 s && s.hbm == Mem.cells 0x200 [5, 6]) ∧
    Carries 0x04 (.copy 0 (.ok [])) { cmd 0x04 4 [0x100, 0x200, 2] with hbm := Mem.cells 0x100 [8] }
      (fun s => fin0 0 0 0 0 s && s.out == [Output.hostWrite 0x200 [8, 0]]) :=
  ⟨carries (by decide +kernel), carries (by decide +kernel)⟩

theorem test_bar2 :
    (gives (.bar2Write 0x40 [1, 2]) (at0 0 {}) (fun s => s.hbm == Mem.cells 0x40 [1, 2]) && (at0 0 {}).hostUp &&
      !(at0 0 {}).sanitizing && decide (0x40 + 2 ≤ 2 ^ (at0 0 {}).dev.bar2Log2)) = true ∧
    gives (.bar2Write (hbmUserEnd - 2 ^ 36 * (hbmUserEnd / 2 ^ 36)) [1])
      { at0 0 {} with dev := { Dev.reset with ready := true, bar2Base := BitVec.ofNat 10 (hbmUserEnd / 2 ^ 36 * 64) } } (fun s => s.hbm == []) = true := by
  decide +kernel

theorem test_load_weave : Carries 0x01 (.loadWeave 0 none) (cmd 0x01 0 [0x1000, 256]) (fin0 0x10 0 0 0) ∧
    Carries 0x01 (.loadWeave 0 none) (cmd 0x01 0 [0x1000, 255]) (fin0 0x10 0 0 0) ∧
    Carries 0x01 (.loadWeave 0 none) { cmd 0x01 0 [0x1000, 256] with alm := { Alm.reset with latched := 1 } } (fin0 0x52 0 0 0) :=
  ⟨carries (by decide +kernel), carries (by decide +kernel), carries (by decide +kernel)⟩

theorem test_apply_weave : Carries 0x02 (.applyWeave 0 none) (cmd 0x02 0 []) (fun s => fin0 0x17 0 0 0 s && s.weave.applyStatus == 0x17) ∧
    Carries 0x02 (.applyWeave 0 none)
      (let s := running id (cmd 0x02 0 [])
       { s with started := [cmd0 0x02 0 []], weave := { s.weave with staged := s.weave.installed } })
      (fun s => fin0 0x16 0 0 0 s && s.weave.staged == s.weave.installed) :=
  ⟨carries (by decide +kernel), carries (by decide +kernel)⟩

theorem test_apply_weave_installs : Carries 0x02 (.applyWeave 0 none)
    (let s := ended (cmd 0x02 0 [])
     { s with weave := { s.weave with staged := some { weave0 5 with bodyDigest := List.replicate 64 3 } } })
    (fun s => fin0 0 0 0 0 s && s.weave.staged == none && s.weave.digest == List.replicate 64 3 && (s.tile 0).imem == [5, 0] &&
      (s.tile 0).clause == some 0) := carries (by decide +kernel)

theorem test_weave_readback :
    let s : State := { at0 0 {} with weave := { WeaveSt.reset with rbBusy := true, rbAddr := 0x1000, rbLen := 100 } }
    (s.chiefRuns && !s.applying && gives .weaveReadback s (fun s => !s.weave.rbBusy && s.weave.rbDone && s.weave.rbStatus == 0x17)) = true ∧
    (let s : State := at0 0 {}
     gives .weaveReadback { s with weave := { s.weave with rbBusy := true, rbAddr := 0x1000, rbLen := 100 } }
       (fun s' => s'.weave.rbStatus == 2 && s'.hbm == [])) = true ∧
    gives .weaveReadback { cmd 0x02 0 [] with weave := s.weave } (fun s => s.weave.rbBusy) = true := by decide +kernel

theorem test_save_ctx : Carries 0x05 (.saveCtx 0) (cmd 0x05 1 []) (fin0 0x17 0 0 0) ∧
    Carries 0x05 (.saveCtx 0) (cmd 0x05 0 [0x1004]) (fun s => fin0 0x72 8 0 0 s && s.hbm == []) ∧
    Carries 0x05 (.saveCtx 0) (tile0 (fun T => { T with dmas := [dma8 false] }) (cmd 0x05 0 [0x1000]))
      (fun s => (s.tile 0).held && s.cmd 0 == some (cmd0 0x05 0 [0x1000])) :=
  ⟨carries (by decide +kernel), carries (by decide +kernel), carries (by decide +kernel)⟩

theorem test_restore_ctx : Carries 0x06 (.restoreCtx 0) (cmd 0x06 1 []) (fin0 0x17 0 0 0) ∧
    Carries 0x06 (.restoreCtx 0) (cmd 0x06 0 [0x1000, 64]) (fin0 0x20 0 0 0) ∧
    Carries 0x06 (.restoreCtx 0) { cmd 0x06 0 [] with alm := { Alm.reset with latched := 1 } } (fin0 0x52 0 0 0) :=
  ⟨carries (by decide +kernel), carries (by decide +kernel), carries (by decide +kernel)⟩

theorem test_transcript : Carries 0x30 (.transcriptStart 0) (cmd 0x30 1 []) (fin0 0x72 4 0 0) ∧
    Carries 0x30 (.transcriptStart 0) (weaveMod (fun w => { w with memplan := [{ id := 9, kind := 3, clauses := 0, base := 0x10000, len := 0x10000 }] })
      (cmd 0x30 3 [])) (fun s => fin0 0 0 0 0 s && s.trans.recording && s.trans.outbound) ∧
    Carries 0x30 (.transcriptStop 0) (cmd 0x30 0 []) (fun s => fin0 0 0 0 0 s && !s.trans.recording) :=
  ⟨carries (by decide +kernel), carries (by decide +kernel), carries (by decide +kernel)⟩

theorem test_replay : Carries 0x31 (.replay 0) (cmd 0x31 1 []) (fin0 0x17 0 0 0) ∧
    Carries 0x31 (.replay 0) (ended (cmd 0x31 0 [0x1008, 64])) (fin0 0x72 8 0 0) ∧
    Carries 0x31 (.replay 0) (ended (cmd 0x31 0 [0x1000, 64])) (fun s => fin0 0x72 8 0 0 s && s.replay == none) :=
  ⟨carries (by decide +kernel), carries (by decide +kernel), carries (by decide +kernel)⟩

/-- The bytes of a sound unsigned weave of one clause over tile 0, at 0x1000: its header with the header digest, then TILEMAP, CLAUSES,
PROGRAMS, MEMPLAN, TALLY and POLICY with their digests. -/
def soundWeave : Mem :=
  Mem.cells 0x1000 [0x4E, 0x57, 0x56, 0x31, 1] ++
  Mem.cells 0x1008 [3, 0, 6, 0, 2] ++
  Mem.cells 0x1011 [3] ++
  Mem.cells 0x1019 [2] ++
  Mem.cells 0x1030 [0x7C, 0xFA, 0xAF, 0xA9, 0x13, 0x44, 0xA4, 0x7B, 0x3F, 0xC3, 0x7B, 0x10, 0xCE, 0x97, 0x48, 0xAA, 0x97, 0xBA, 
  0x91, 0x75, 0xCF, 9, 0x5A, 0x2C, 0x21, 0xB3, 0xE2, 0x89, 0xE8, 0xDC, 0xFD, 0x4E, 0x1C, 0x6D, 0x6E, 0xFD, 0x75, 0x10, 0x0E, 0x33, 
  0x83, 0x30, 0xD5, 0xE9, 0x6B, 0x25, 0x32, 0x9B, 0x78, 0x6D, 0x57, 0x22, 0x77, 0x2E, 0x94, 0x23, 0xC4, 4, 0x70, 0xF8, 0x4B, 0x46, 
  0x69, 0x83] ++
  Mem.cells 0x10F0 [0x32, 8, 0xE1, 0xA0, 0x47, 0xA2, 0xAB, 0xD0, 0xC1, 0x35, 0xE9, 0x7D, 0xDD, 0x24, 0x2B, 0xC9, 1, 0, 1] ++
  Mem.cells 0x1108 [0x48] ++
  Mem.cells 0x1110 [0x68, 0x47, 0x6E, 0xDF, 0x3F, 0x96, 0x5A, 0xB0, 0x0B, 0xDE, 0xF8, 0xA8, 0x4A, 0x4A, 6, 0x4E, 2, 0, 1] ++
  Mem.cells 0x1128 [1] ++
  Mem.cells 0x1180 [2, 0, 1] ++
  Mem.cells 0x1188 [0x1A] ++
  Mem.cells 0x1190 [0x87, 0x0F, 0x7C, 0xF1, 0xF5, 0xA1, 0x9B, 0xD5, 0x5B, 0x49, 0x95, 0x80, 0xE4, 0x8E, 0xF3, 0xDF, 1] ++
  Mem.cells 0x11AA [1, 1, 1] ++
  Mem.cells 0x11B0 [0x18] ++
  Mem.cells 0x11C0 [3, 0, 1] ++
  Mem.cells 0x11C8 [8] ++
  Mem.cells 0x11D0 [0x11, 0x91, 0x41, 0xDC, 0xE8, 0x98, 7, 9, 0x60, 0x95, 0xD9, 0x72, 0x9B, 0x0D, 0xA8, 4] ++
  Mem.cells 0x1200 [8, 0, 1] ++
  Mem.cells 0x1208 [0x28] ++
  Mem.cells 0x1210 [0x80, 0xFA, 0x3B, 0xC8, 0x44, 0xAC, 0xD1, 0x7A, 0x0E, 0xF4, 0x19, 0x23, 9, 0xF8, 0x34, 0x50, 1] ++
  Mem.cells 0x122C [2] ++
  Mem.cells 0x1230 [0x18] ++
  Mem.cells 0x1280 [9, 0, 1] ++
  Mem.cells 0x1288 [8] ++
  Mem.cells 0x1290 [0x11, 0x91, 0x41, 0xDC, 0xE8, 0x98, 7, 9, 0x60, 0x95, 0xD9, 0x72, 0x9B, 0x0D, 0xA8, 4] ++
  Mem.cells 0x12C0 [0x0D, 0, 1] ++
  Mem.cells 0x12C8 [0x20] ++
  Mem.cells 0x12D0 [0xF5, 0x97, 0x7C, 0x82, 0x83, 0x54, 0x6A, 0x63, 0x72, 0x3B, 0xC3, 0x1D, 0x26, 0x19, 0x12, 0x4F]

theorem test_load_weave_stages : Carries 0x01 (.loadWeave 0 none)
    { cmd 0x01 0 [0x1000, 0x300] with weave := WeaveSt.reset, clauses := [], hbm := soundWeave }
    (fin0 0 0 0 0) := carries (by decide +kernel)

theorem test_load_weave_digest : Carries 0x01 (.loadWeave 0 none)
    { cmd 0x01 0 [0x1000, 0x300] with weave := WeaveSt.reset, clauses := [], hbm := Mem.write soundWeave 0x12C8 [0x21] }
    (fin0 0x11 0 0x30 0) := carries (by decide +kernel)

theorem test_load_weave_signature : Carries 0x01 (.loadWeave 0 none)
      { cmd 0x01 0 [0x1000, 0x300] with weave := { WeaveSt.reset with requireSig := true }, clauses := [], hbm := soundWeave }
      (fin0 0x50 0 6 0) ∧
    Carries 0x01 (.loadWeave 0 none)
      { cmd 0x01 0 [0x1000, 0x300] with weave := WeaveSt.reset, clauses := [], hbm := Mem.write soundWeave 0x10F0 [0x33] }
      (fin0 0x10 0 0xF0 0) :=
  ⟨carries (by decide +kernel), carries (by decide +kernel)⟩

/-- A SAVE_CTX of clause 0 into its context region, with a buffer of n bytes. -/
def saving (n : Nat) : State :=
  weaveMod (fun w => { w with memplan := [{ id := 9, kind := 5, clauses := 1, base := 0x10000, len := 0x100000 }] })
    (cmd 0x05 0 [0x10000, n, 0])

theorem test_save_ctx_hypotheses : (∃ d, Takes (saving 0x28C0) 0 0x05 d) ∧
    (let s := saving 0x28C0
     s.settled 0 && !s.frozen 0 && s.ctxRegion 0 0x10000 0x28C0 && ((s.holdClause 0 false).ctxImage 0 0).length == 0x28C0 && decide (0x28BF < 0x28C0) &&
       !s.hbmAsleep 0x10000 0x28C0) = true :=
  ⟨takes_of (by decide +kernel), by decide +kernel⟩

/-! ## Security, alarms and debug -/

/-- The West hopper serves: n units above its reserve, all its cells healthy. -/
def fed (n : Nat) (s : State) : State :=
  { s with hopW := { s.hopW with ready := true, reserve := 0, units := List.replicate n (List.replicate 32 7),
                                 cells := List.replicate 16 { st := .healthy, pend := none, isolations := [], health := HealthAt.start, apt := 824, rct := 81 } } }

/-- Alarm actions k in every field. -/
def policyOf (k : Nat) (s : State) : State := { s with alm := { s.alm with policy := BitVec.ofNat 12 (0x555 * k) } }

theorem test_attest : Carries 0x10 (.attest 0) (cmd 0x10 0 [0x1004, 8032]) (fin0 0x72 8 0 0) ∧
    Carries 0x10 (.attest 0) (cmd 0x10 0 [0x1000, 8031]) (fin0 0x72 0x10 8032 0) ∧
    (takes 0x10 (cmd 0x10 0 [0x1000, 8032]) && (cmd 0x10 0 []).serialTurn 0 && !(cmd 0x10 0 []).hasKey 0 &&
      !(cmd 0x10 0 []).hbmAsleep 0x1000 1664) = true :=
  ⟨carries (by decide +kernel), carries (by decide +kernel), by decide +kernel⟩

theorem test_session_open : Carries 0x11 (.sessionOpen 0) (cmd 0x11 0 [0x1000, 1608, 0x2000, 2960]) (fin0 0x50 0 0 0) ∧
    Carries 0x11 (.sessionOpen 0) (policyOf 1 { cmd 0x11 0 [] with alm := { Alm.reset with latched := 1 } }) (fin0 0x52 0 0 0) ∧
    (let s := fed 4 { cmd 0x11 0 [] with sec := { Sec.reset with store := [{ k := 0, key := [], digest := [], torn := false }] } }
     s.hasKey 0 && s.serves false && !s.serves true && (sessionBad (List.replicate 1608 0)).isSome) = true :=
  ⟨carries (by decide +kernel), carries (by decide +kernel), by decide +kernel⟩

theorem test_session_close : Carries 0x12 (.sessionClose 0)
    { cmd 0x12 0 [] with sec := { Sec.reset with session := true, store := [0, 1, 2, 3, 4].map fun k => { k := k, key := [], digest := [], torn := false } } }
    (fun s => fin0 0 0 0 0 s && !s.sec.session && s.sec.store.map (·.k) == [0, 4]) := carries (by decide +kernel)

theorem test_sanitize : Carries 0x07 (.sanitize 0) (cmd 0x07 0 [0x1004]) (fin0 0x72 8 0 0) ∧
    Carries 0x07 (.sanitize 0) { cmd 0x07 0 [0x1000] with dev := { Dev.reset with ready := true, eastAwake := false } } (fin0 0x30 0 0 0) :=
  ⟨carries (by decide +kernel), carries (by decide +kernel)⟩

theorem test_sanitize_turn :
    gives (.sanitize 1) { cmd 0x04 0 [] with started := [cmd0 0x04 0 [], { cmd0 0x07 0 [0x1000] with id := 1 }] }
      (fun s => s.started.map (·.fin) == [none, none]) = true ∧
    (takes 0x07 (cmd 0x07 0 [0x1000]) && (cmd 0x07 0 []).sanitizeTurn 0 && !(cmd 0x07 0 []).halfClosed true) = true := by decide +kernel

theorem test_dbg_challenge :
    (gives .dbgChallenge (fed 4 (at0 0 {})) (fun s => s.sec.nonceValid && s.hopW.units.length == 3) &&
      gives .dbgChallenge (at0 0 {}) (fun s => s.sec.lastResult == 7 && !s.sec.nonceValid)) = true := by decide +kernel

theorem test_dbg_submit :
    gives .dbgSubmit { at0 0 {} with sec := { Sec.reset with nonceValid := true } }
      (fun s => s.sec.lastResult == 2 && s.sec.dbgFails == 1 && !s.sec.nonceValid && s.alm.dbgRun == 1 && s.sec.debug == 0) = true := by
  decide +kernel

theorem test_dbg_lock :
    gives .dbgLock (tile0 (fun T => { T with dbg := { T.dbg with held := true, hold := true } })
      { at0 0 {} with sec := { Sec.reset with debug := 2 }, mboxW := { Mbox.reset with held := true } })
      (fun s => s.sec.debug == 0 && !(s.tile 0).dbg.held && !s.mboxW.held) = true := by decide +kernel

theorem test_dbg_nonce_expire :
    gives .dbgNonceExpire { at0 0 {} with sec := { Sec.reset with nonceValid := true } } (fun s => !s.sec.nonceValid) = true := by decide

/-- Debug level n. -/
def dbg (n : Nat) (s : State) : State := { s with sec := { s.sec with debug := n } }

theorem test_dbg_ctl_hold :
    (gives (.dbgCtlHold 0 0xA0000000) (dbg 1 (at0 0 {})) (fun s => (s.tile 0).dbg.held && (s.tile 0).dbg.holdEn) &&
      gives (.dbgCtlHold 0 0xA0000000) (at0 0 {}) (fun s => !(s.tile 0).dbg.held && s.alm.dbgRun == 1)) = true := by decide +kernel

theorem test_dbg_ctl_step :
    gives (.dbgCtlStep 0 0xC0000000) (dbg 1 (tile0 (fun T => { T with dbg := { T.dbg with held := true, hold := true } }) (at0 0 {})))
      (fun s => (s.tile 0).dbg.stepPending && (s.tile 0).dbg.held) = true := by decide +kernel

theorem test_steward_hold :
    (gives (.stewardHold .east 0x80000000) (dbg 2 (at0 0 {})) (fun s => s.mboxE.held && !s.mboxW.held) &&
      gives (.stewardHold .east 0x80000000) (dbg 1 (at0 0 {})) (fun s => !s.mboxE.held && s.alm.dbgRun == 1)) = true := by decide +kernel

theorem test_steward_step : gives (.stewardStep .west) (dbg 2 (at0 0 {})) (fun s => s.mboxW.held) = true := by decide +kernel

theorem test_mesh_breach :
    (gives (.meshBreach true) (policyOf 1 (at0 0 {})) (fun s => s.alm.latched == 1 && s.alm.counts.getD 0 0 == 1 && s.dev.irqStat == 0x10) &&
      gives (.meshBreach true) (policyOf 0 (at0 0 {})) (fun s => s.alm.latched == 0 && s.alm.counts.getD 0 0 == 1) &&
      gives (.meshBreach true) { at0 0 {} with alm := { Alm.reset with present := 1 } } (fun s => s.alm.latched == 0)) = true := by decide +kernel

theorem test_temperature_out_of_range :
    (gives (.temperatureOutOfRange { sensor := .tile 0, temp := 111 }) (policyOf 2 (keyed (at0 0 {})))
        (fun s => s.alm.latched == 2 && s.sec.store == [] && s.alm.hot == [.tile 0]) &&
      gives (.temperatureOutOfRange { sensor := .tile 0, temp := 110 })
        { at0 0 {} with alm := { Alm.reset with present := 2, hot := [.tile 0, .vigil] } } (fun s => s.alm.present == 2) &&
      gives (.temperatureOutOfRange { sensor := .tile 0, temp := 110 })
        { at0 0 {} with alm := { Alm.reset with present := 2, hot := [.tile 0] } } (fun s => s.alm.present == 0)) = true := by
  decide +kernel

theorem test_backside_light :
    gives (.backsideLight { present := true, upset := [] }) (policyOf 3 { at0 0 {} with sec := { Sec.reset with store := [{ k := 0, key := [], digest := [], torn := false }] } })
      (fun s => s.alm.latched == 4 && s.sec.store == [] && s.sec.idErased) = true := by decide +kernel

theorem test_vigil_wake :
    gives (.vigilWake true { temp := 20, torn := [] }) (policyOf 1 { at0 0 {} with pwr := { Pwr.reset with core := .off, vigil := true } })
      (fun s => s.alm.latched == 1 && s.alm.pendingReset) = true := by decide +kernel

theorem test_ent_fail_persist :
    (gives (.entFailPersist .west) (policyOf 1 { at0 0 {} with hopW := { Hopper.reset with entFail := true } })
        (fun s => s.hopW.alarmed && s.alm.latched == 0x20 && s.alm.counts.getD 5 0 == 1) &&
      gives (.entFailPersist .west) (policyOf 1 { at0 0 {} with hopW := { Hopper.reset with entFail := true, alarmed := true } })
        (fun s => s.alm.latched == 0)) = true := by decide +kernel

theorem test_alm_policy :
    (gives (.almPolicyWrite 0x9) (policyOf 1 (at0 0 {})) (fun s => s.alm.policy == 0x559) &&
      gives (.almPolicyWrite 0x9) (dbg 2 (policyOf 1 (at0 0 {}))) (fun s => s.alm.policy == 0x9)) = true := by decide +kernel

theorem test_alm_cfg :
    gives (.almCfgWrite 0xE8780F05) (at0 0 {}) (fun s => s.alm.tLow == 0xE8 && s.alm.tHigh == 110 && s.alm.authLimit == 15 &&
      s.alm.dbgLimit == 4) = true := by decide +kernel

/-! ## Firmware, power, resets, calibration -/

/-- Part digests of an image of seven empty parts: the seven are SHAKE256 of nothing. -/
def parts0 : List Byte :=
  let d := leBytes 64 0xbec4b7b3ac2e294086b49a47491c82fcf692b5679d0105cb00f2c0d8ddc45dd72f76d56e64270cb5821bb862ea52cd3f24eb3e74eb3f3b23138da80b2bddb946
  (List.range 7).flatMap fun _ => zeros 24 ++ d ++ zeros 8

/-- An image of 0xC00 bytes with rollback 3, whose digests verify. -/
def image0 : List Byte := zeros 16 ++ leBytes 8 0xC00 ++ zeros 4 ++ leBytes 4 3 ++ zeros 64 ++ parts0

/-- The firmware block changed. -/
def fwm (g : Fw → Fw) (s : State) : State := { s with fw := g s.fw }

/-- Slot 1 holds image0 in a state. -/
def slot1 (state : Nat) : Fw → Fw := fun f => { f with slot1 := slotWith state image0 }

/-- Alarm source 0 latched. -/
def latched (s : State) : State := { s with alm := { s.alm with latched := 1 } }

theorem test_fw_stage_refused :
    Carries 0x20 (.fwStage 0 true 0) (latched (cmd 0x20 0 [0x1000, 0xC00])) (fin0 0x52 0 0 0) ∧
    Carries 0x20 (.fwStage 0 true 0) (fwm (fun f => { f with state := 1 }) (cmd 0x20 0 [0x1000, 0xC00])) (fin0 0x63 0 0 0) ∧
    Carries 0x20 (.fwStage 0 true 0) (cmd 0x20 0 [0x1000, 0xC00]) (fin0 0x60 0x10 0 0) :=
  ⟨carries (by decide +kernel), carries (by decide +kernel), carries (by decide +kernel)⟩

theorem test_fw_stage_manifest :
    Carries 0x20 (.fwStage 0 true 0)
      { cmd 0x20 0 [0x1000, 0xC00] with hbm := [(0x1000, 0x4E), (0x1001, 0x46), (0x1002, 0x57), (0x1003, 0x31), (0x1004, 1), (0x1008, 7),
        (0x1011, 0xC), (0x1019, 1)] } (fin0 0x60 0x19 0 0) := carries (by decide +kernel)

theorem test_fw_stage_end :
    Carries 0x20 (.fwStage 0 false 2) (fwm (fun f => slot1 1 { f with stage := some { cmd := some 0 }, streams := [], accepted := 2, refused := 4 }) (cmd 0x20 0 []))
      (fun s => fin0 0x61 0 1 4 s && s.fw.slot1.state == 4 && s.fw.stage.isNone) := carries (by decide +kernel)

theorem test_fw_activate :
    Carries 0x21 (.fwActivate 0 true true) (ended (cmd 0x21 0 [])) (fin0 0x60 0 0 0) ∧
    Carries 0x21 (.fwActivate 0 false true) (ended (fwm (slot1 2) (cmd 0x21 0 []))) (fun s => fin0 0x61 0 0 0 s && s.fw.slot1.state == 4) ∧
    Carries 0x21 (.fwActivate 0 true true) (ended (fwm (slot1 2) (cmd 0x21 0 [])))
      (fun s => fin0 0 0 0 0 s && s.fw.activeSlot && s.fw.state == 1 && s.fw.slot1.state == 3 && s.fw.slot0.state == 2) :=
  ⟨carries (by decide +kernel), carries (by decide +kernel), carries (by decide +kernel)⟩

theorem test_fw_activate_at_next_start :
    Carries 0x21 (.fwActivateAtNextStart 0) (ended (fwm (slot1 2) (cmd 0x21 1 [])))
      (fun s => fin0 0 0 0 0 s && s.fw.pend && !s.fw.activeSlot) ∧
    Carries 0x21 (.fwActivateAtNextStart 0) (fwm (fun f => slot1 2 { f with pend := true }) (cmd 0x21 1 [])) (fin0 0x63 0 0 0) ∧
    Carries 0x21 (.fwActivateAtNextStart 0) (latched (cmd 0x21 1 [])) (fin0 0x52 0 0 0) :=
  ⟨carries (by decide +kernel), carries (by decide +kernel), carries (by decide +kernel)⟩

theorem test_fw_confirm :
    Carries 0x22 (.fwConfirm 0) (fwm (fun f => slot1 3 { f with state := 1, attempts := 2, activeSlot := true, floor := 2 }) (cmd 0x22 0 []))
      (fun s => fin0 0 0 0 0 s && s.fw.state == 0 && s.fw.floor == 3 && s.fw.attempts == 0) ∧
    Carries 0x22 (.fwConfirm 0) (cmd 0x22 0 []) (fun s => fin0 0 0 0 0 s && s.fw.state == 0) :=
  ⟨carries (by decide +kernel), carries (by decide +kernel)⟩

/-- Link 0 trained and keyless. -/
def trained (g : Link → Link) (s : State) : State :=
  { s with links := (List.replicate 32 Link.reset).set 0 (g { Link.reset with trained := true, state := .opened }) }

theorem test_fw_forward_receive :
    ((trained id (at0 0 {})).linkTrained 0 && (trained id (at0 0 {})).chiefRuns &&
      gives (.fwForwardReceive 0 image0 true) (trained id (at0 0 {})) (fun s => s.out == [Output.fwAnswer 0 0x63]) &&
      gives (.fwForwardReceive 0 image0 true) (fwm (fun f => { f with acceptChain := true }) (trained id (at0 0 {})))
        (fun s => s.out == [Output.fwAnswer 0 0x63] || s.fw.lastStatus == 0x60)) = true := by decide +kernel

theorem test_fw_forward_abandon :
    (gives (.fwForwardAbandon 1) (fwm (fun f => { f with streams := [0, 1] }) (at0 0 {})) (fun s => s.fw.streams == [0] && s.fw.refused == 2) &&
      gives (.fwForwardAbandon 2) (fwm (fun f => { f with streams := [0, 1] }) (at0 0 {})) (fun s => s.fw.streams == [0, 1])) = true := by
  decide +kernel

/-- The block in recovery, with a buffer of eight bytes. -/
def inRecovery (g : Fw → Fw) : State :=
  fwm (fun f => g { f with recCount := 8, recBuf := [(0, 9), (7, 3)] })
    { at0 0 {} with dev := { Dev.reset with recovery := true }, pwr := { Pwr.reset with core := .running } }

theorem test_fw_recov_go :
    (gives .fwRecovGo (at0 0 {}) (fun s => !s.fw.recDone) &&
      gives .fwRecovGo (inRecovery fun f => { f with recOff := 8 }) (fun s => s.fw.recStatus == 0x60 && s.fw.recDone) &&
      gives .fwRecovGo (inRecovery id) (fun s => s.fw.recStatus == 0 && s.fw.recNext == 8 && s.fw.recImage == [9, 0, 0, 0, 0, 0, 0, 3] &&
        s.fw.slot0.state == 3 && s.fw.slot1.state == 1) &&
      gives .fwRecovGo (inRecovery fun f => { f with slotOk := (false, false) }) (fun s => s.fw.slot0.state == 1)) = true := by
  decide +kernel

theorem test_fw_recov_finish :
    (gives (.fwRecovFinish true) (inRecovery id) (fun s => s.fw.recStatus == 0x60) &&
      leAt image0 0x10 8 == 0xC00 &&
      gives (.fwRecovFinish false) (inRecovery fun f => { f with recImage := image0, recNext := 0xC00 })
        (fun s => s.fw.recStatus == 0x61 && s.fw.slot1.state == 4 && !s.fw.activeSlot)) = true := by decide +kernel

theorem test_power_state :
    Carries 0x40 (.powerState 0) (cmd 0x40 2 []) (fin0 0x72 4 0 0) ∧
    Carries 0x40 (.powerState 0) (cmd 0x40 1 []) (fin0 0 0 0 0) ∧
    Carries 0x40 (.powerState 0) { running id (at0 0 {}) with started := [cmd0 0x40 3 []] } (fin0 0x16 0 0 0) :=
  ⟨carries (by decide +kernel), carries (by decide +kernel), carries (by decide +kernel)⟩

/-- Queue 0 enabled with rings of 16 entries. -/
def ringed (s : State) : State :=
  { s with queues := { Queue.reset with enable := true, sqLog2 := 4, cqLog2 := 4, cq := 0x8000, phase := true } :: List.replicate 15 Queue.reset }

theorem test_vigil :
    Carries 0x40 (.powerState 0) (ringed { cmd 0x40 3 [] with pwr := { Pwr.reset with core := .running, retain := true } })
      (fun s => s.pwr.vigil && s.pwr.core == .off && s.pwr.hbmEn && s.started.isEmpty && (s.stack 5).selfRefresh && !(s.stack 5).up) ∧
    gives (.powerState 1) { cmd 0x04 0 [] with started := [cmd0 0x04 0 [], { cmd0 0x40 3 [] with id := 1 }] }
      (fun s => s.started.map (·.fin) == [none, none]) = true := ⟨carries (by decide +kernel), by decide +kernel⟩

theorem test_half_power_off :
    Carries 0x41 (.halfPowerOff 0) (cmd 0x41 1 []) (fun s => fin0 0 0 0 0 s && !s.dev.eastAwake && (s.stack 6).selfRefresh && (s.stack 5).up) ∧
    Carries 0x41 (.halfPowerOff 0) (gang 0 0 (cmd 0x41 1 [])) (fun s => fin0 0x14 0 0 0 s && s.dev.eastAwake) ∧
    Carries 0x41 (.halfPowerOff 0) { cmd 0x41 1 [] with dev := { Dev.reset with ready := true, eastAwake := false } } (fin0 0 0 0 0) :=
  ⟨carries (by decide +kernel), carries (by decide +kernel), carries (by decide +kernel)⟩

theorem test_half_power_on :
    Carries 0x41 (.halfPowerOn 0) { cmd 0x41 0x101 [] with dev := { Dev.reset with ready := true, eastAwake := false } }
      (fun s => fin0 0 0 0 0 s && s.dev.eastAwake && (s.stack 11).up && s.tile 1 == { Tile.reset with cal := (s.tile 1).cal }) ∧
    Carries 0x41 (.halfPowerOn 0) (cmd 0x41 0x101 []) (fin0 0 0 0 0) := ⟨carries (by decide +kernel), carries (by decide +kernel)⟩

/-- The small block in vigil. -/
def inVigil (g : Pwr → Pwr) : State :=
  { at0 0 {} with pwr := g { Pwr.reset with core := .off, coreEn := false, hbmEn := false, vigil := true, plAddr := 3 } }

theorem test_plait_wake :
    (gives (.plaitWake 0x6B false) (inVigil id) (fun s => s.pwr.core == .resetHeld && s.pwr.coreEn && s.pwr.pendingWake == 1) &&
      gives (.plaitWake 0x68 false) (inVigil id) (fun s => s.pwr.core == .off) &&
      gives (.plaitWake 0x6B false) (inVigil fun p => { p with thermtrip := true }) (fun s => s.pwr.core == .off)) = true := by
  decide +kernel

theorem test_link_wake_detect :
    (gives (.linkWakeDetect 9 (.pattern 0xAA570007) false) { inVigil id with glkWake := { GlkWake.reset with device := 7, enable := 0x200 } }
        (fun s => s.glkWake.hit && s.glkWake.hitLink == 9 && s.pwr.pendingWake == 2) &&
      gives (.linkWakeDetect 9 (.mark 10) false) { inVigil id with glkWake := { GlkWake.reset with mode := true, enable := 0x200 } }
        (fun s => s.glkWake.hit) &&
      gives (.linkWakeDetect 8 (.mark 10) false) { inVigil id with glkWake := { GlkWake.reset with mode := true, enable := 0x200 } }
        (fun s => !s.glkWake.hit)) = true := by decide +kernel

theorem test_thermtrip :
    gives .thermtrip (at0 0 {}) (fun s => s.pwr.thermtrip && s.pwr.core == .off && !s.pwr.hbmEn && !s.dev.ready) = true := by decide +kernel

theorem test_boot_ready_timeout :
    (gives .bootReadyTimeout (fwm (fun f => { f with state := 1 }) { at0 0 {} with dev := Dev.reset })
        (fun s => s.pwr.core == .off && s.pwr.bootPulse) &&
      gives .bootReadyTimeout (fwm (fun f => { f with state := 1 }) (at0 0 {})) (fun s => s.pwr.core == .running)) = true := by decide +kernel

theorem test_failed_boot_restart :
    (gives .failedBootRestart { at0 0 {} with pwr := { Pwr.reset with core := .off, coreEn := false, bootPulse := true } }
        (fun s => s.pwr.core == .resetHeld && s.pwr.coreEn && !s.pwr.bootPulse) &&
      gives .failedBootRestart (at0 0 {}) (fun s => s.pwr.core == .running)) = true := by decide +kernel

theorem test_host_warm_reset :
    (gives (.hostWarmReset 0x4A530001 false) { cmd 0x01 0 [] with hbm := [(5, 1)] } (fun s => s.hbm == [(5, 1)] && s.started.isEmpty &&
        s.weave.installed.isNone && s.pwr.cause == 4 && s.dev.ready) &&
      gives (.hostWarmReset 0 true) (cmd 0x01 0 []) (fun s => s.pwr.cause == 4) &&
      gives (.hostWarmReset 0x4A530000 false) (cmd 0x01 0 []) (fun s => s.started.length == 1)) = true := by decide +kernel

theorem test_fundamental_reset :
    gives .fundamentalReset (dbg 2 (at0 0 {})) (fun s => s.pwr.cause == 3 && s.sec.debug == 0 && (s.tile 0).clause.isNone) = true := by
  decide +kernel

/-- What a power-up meets on a whole board. -/
def boot0 : BootIn :=
  { recoveryN := true, pcieGen := 6, pcieWidth := 16, pcieFlit := true, rates := List.replicate 12 96, slotOk := (true, false),
    identityOk := false, starts := true }

theorem test_cold_reset :
    (gives (.coldReset boot0) { at0 0 {} with pwr := Pwr.reset, hbm := [(5, 1)] }
        (fun s => s.dev.ready && s.pwr.core == .running && s.hbm == [] && s.pwr.cause == 1 && (s.stack 11).up && s.weave.installed.isNone) &&
      gives (.coldReset boot0) (at0 0 {}) (fun s => s.weave.installed.isSome)) = true := by decide +kernel

theorem test_cold_reset_recovery :
    (gives (.coldReset { boot0 with recoveryN := false }) { at0 0 {} with pwr := Pwr.reset } (fun s => s.dev.recovery && !s.dev.ready && s.dev.pciGen == 5) &&
      gives (.coldReset { boot0 with slotOk := (false, false) }) { at0 0 {} with pwr := Pwr.reset } (fun s => s.dev.recovery)) = true := by
  decide +kernel

theorem test_cold_reset_fall_back :
    gives (.coldReset { boot0 with slotOk := (false, true) }) (fwm (fun f => (slot1 2 f).commit) { at0 0 {} with pwr := Pwr.reset })
      (fun s => s.dev.ready && s.fw.activeSlot && s.fw.state == 2 && s.fw.slot0.state == 4 && s.fw.slot1.state == 3) = true := by decide +kernel

theorem test_cold_reset_vigil :
    gives (.coldReset boot0) { at0 0 {} with
        hbm := [(5, 1)], pwr := { Pwr.reset with stbyLost := false, retained := true, vigil := true, pendingWake := 1 } }
      (fun s => s.hbm == [(5, 1)] && s.pwr.cause == 7 && s.pwr.wakeSrc == 1 && !s.pwr.vigil) = true := by decide +kernel

theorem test_reset_n_assert :
    gives .resetNAssert (cmd 0x01 0 []) (fun s => s.pwr.core == .resetHeld && s.started.isEmpty && !s.dev.ready) = true := by decide +kernel

theorem test_stby_reset_assert :
    gives .stbyResetAssert (policyOf 1 (latched (at0 0 {}))) (fun s => s.pwr.stbyReset && s.pwr.core == .off && s.alm.latched == 0 &&
      s.alm.policy == 0x555) = true := by decide +kernel

/-- The VSTBY domain held in reset. -/
def stby0 : State := { at0 0 {} with pwr := { Pwr.reset with stbyReset := true, core := .off, coreEn := false } }

theorem test_stby_reset_release :
    (gives (.stbyResetRelease 5 0) stby0 (fun s => s.pwr.core == .resetHeld && s.pwr.plAddr == 5 && s.pwr.bootCount == 2) &&
      gives (.stbyResetRelease 5 1) stby0 (fun s => s.pwr.vigil && !s.pwr.coreEn) &&
      gives (.stbyResetRelease 0 3) stby0 (fun s => s.pwr.core == .resetHeld && s.pwr.coreEn && s.pwr.hbmEn)) = true := by decide +kernel

/-- Calibrator of tile 0 changed from the reset one. -/
def calm (g : Calib → Calib) : State := tile0 (fun T => { T with cal := g Calib.reset }) (at0 0 {})

theorem test_pwr_vset_write :
    gives (.pwrVsetWrite 0x02BC0384) (at0 0 {}) (fun s => (s.rail false).vcmd == 700 && (s.rail true).vcmd == 850) = true := by decide +kernel

theorem test_throttle_step :
    (gives (.throttleStep .west) (calm fun k => { k with now := { k.now with tj := 380 } }) (fun s => (s.rail false).vcmd == 740) &&
      gives (.throttleStep .west) (calm fun k => { k with now := { k.now with tj := 379 } }) (fun s => (s.rail false).vcmd == 750) &&
      gives (.throttleStep .west) { calm id with pwr := { Pwr.reset with core := .running, railW := { Pwr.reset.railW with vcmd := 745 } } }
        (fun s => (s.rail false).vcmd == 750)) = true := by decide +kernel

theorem test_tj_sample :
    (gives (.tjSample 0 21) (calm fun k => { k with cal := 0, known := true }) (fun s => (s.tile 0).cal.cal == 2 && (s.tile 0).cal.trigger == 1) &&
      gives (.tjSample 0 20) (calm fun k => { k with cal := 0, known := true }) (fun s => (s.tile 0).cal.cal == 0 && (s.tile 0).cal.now.tj == 20)) = true := by
  decide +kernel

theorem test_telemetry_read :
    ((calm id).nTiles ≤ (calm id).tiles.length ∧
      gives (.telemetryRead .west none) (calm id) (fun s => (s.rail false).noresp && (s.tile 0).cal.vsrc && !(s.tile 1).cal.vsrc) = true ∧
      gives (.telemetryRead .west (some { vout := 748, vana := 1200, uv := false, torn := [] })) (calm id)
        (fun s => (s.rail false).vout == 748 && (s.tile 0).cal.now.vc == 748 && (s.tile 0).cal.now.va == 1200)) = true := by decide +kernel

/-- A calibration's figures that pass. -/
def goodUnit : UnitMeas :=
  { offs := [9000, 8000, 9000, 8000, 9000, 8000, 9000, 8000, 9000, 8192], verify := [651, 6195, 26573, 32117, 131072], gain := 65536,
    gainCode := 128, jcorr := 0, jCode := 0, acorr := 0, ncorr := 0, jerr := 0 }

/-- From 0 those ten counts move the offset trim by -256 + 128 - 64 + ... - 1, and the tenth, one half of the phases, keeps it. -/
theorem test_bisect : bisect 0 goodUnit.offs = (-171, true) ∧ (bisect 0 (List.replicate 10 9000)).2 = false ∧
    unitPerr goodUnit * 1000 ≤ 2 ^ 48 := by decide +kernel

theorem test_calibration_start :
    (gives (.calibrationStart 0) (calm id) (fun s => (s.tile 0).cal.step == 1 && (s.tile 0).cal.cal == 1) &&
      gives (.calibrationStart 0) (calm fun k => { k with cal := 0 }) (fun s => (s.tile 0).cal.step == 0)) = true := by decide +kernel

theorem test_calibration_complete :
    (gives (.calibrationComplete 0 { betaRatio := 1048576, units := [], rest := goodUnit }) (calm fun k => { k with step := 1 })
        (fun s => (s.tile 0).cal.cal == 0 && (s.tile 0).cal.seq == 1) &&
      gives (.calibrationComplete 0 { betaRatio := 1048576, units := [], rest := { goodUnit with verify := [881, 6195, 26573, 32117, 131072] } }) (calm fun k => { k with step := 1 })
        (fun s => (s.tile 0).cal.cal == 1 && (s.tile 0).cal.trigger == 6 && (s.tile 0).cal.failReason == 4)) = true := by decide +kernel

theorem test_calibration_fails :
    gives (.calibrationComplete 0 { betaRatio := 1069548, units := [], rest := goodUnit }) (calm fun k => { k with step := 1, fails := 1 })
      (fun s => (s.tile 0).cal.cal == 3 && s.dev.irqStat == 0x20 && (s.tile 0).cal.failReason == 2) = true := by decide +kernel

theorem test_spot_check :
    (gives (.spotCheckStart 0) ({ calm (fun k => { k with cal := 0, spotCmd := true }) with timer := 50000 }) (fun s => (s.tile 0).cal.spot) &&
      gives (.spotCheckStart 0) ({ calm (fun k => { k with cal := 0, spotCmd := true }) with timer := 49999 }) (fun s => !(s.tile 0).cal.spot) &&
      gives (.spotCheckComplete 0 1639) (calm fun k => { k with cal := 0, spot := true })
        (fun s => (s.tile 0).cal.cal == 2 && (s.tile 0).cal.trigger == 4 && (s.tile 0).cal.driftLast == 1639) &&
      gives (.spotCheckComplete 0 1638) (calm fun k => { k with cal := 0, spot := true }) (fun s => (s.tile 0).cal.cal == 0)) = true := by
  decide +kernel

theorem test_cal_cmd :
    (gives (.calCmdStart 0) (calm fun k => { k with cal := 0 }) (fun s => (s.tile 0).cal.startCmd) &&
      gives (.calCmdStart 0) (calm fun k => { k with cal := 3 }) (fun s => (s.tile 0).cal.cal == 1 && (s.tile 0).cal.trigger == 5) &&
      gives (.calCmdSpot 0) (calm id) (fun s => (s.tile 0).cal.spotCmd)) = true := by decide +kernel

/-! ## Tallies, entropy, token samplers, links, management -/

/-- Every counter of tile 0 is 7. -/
def counted (s : State) : State := tile0 (fun T => { T with cnt := List.replicate 96 7 }) s

theorem test_tly_clear :
    (gives .tlyClear (counted (at0 0 {})) (fun s => (s.tile 0).cnt.getD 95 1 == 0) &&
      gives (.tileTallyClear 0) (counted (at0 0 {})) (fun s => (s.tile 0).cnt.getD 95 1 == 0) &&
      gives (.tileTallyClear 1) (counted (at0 0 {})) (fun s => (s.tile 0).cnt.getD 95 1 == 7)) = true := by decide +kernel

/-- A tally body at address 0x1000: the selected mode, no region, the second event changed. -/
def tallyBody (mode : Byte) : Mem :=
  Mem.cells 0x1000 ([mode, 0, 0xFF, 0xFF, 0, 0, 0, 0, 0, 0, 0x0A, 0, 2, 0, 3, 0, 4, 0, 0x10, 0, 0x18, 0, 0x2A, 0])

theorem test_tally_cfg :
    Carries 0x50 (.tallyCfg 0) { counted (cmd 0x50 0 [0x1000]) with hbm := tallyBody 0 }
      (fun s => fin0 0 0 0 0 s && (s.tile 0).cnt.take 3 == [7, 0, 7] && s.tly.cfg.events.getD 1 0 == 0x0A) ∧
    Carries 0x50 (.tallyCfg 0) { cmd 0x50 0 [0x1000] with hbm := tallyBody 2 } (fin0 0x72 0 0 0) ∧
    Carries 0x50 (.tallyCfg 0) { cmd 0x50 0 [0x1000] with weave := { WeaveSt.reset with locked := true } } (fin0 0x51 0 0 0) :=
  ⟨carries (by decide +kernel), carries (by decide +kernel), carries (by decide +kernel)⟩

/-- A tally ring of n bytes of data at 0x10000 with a dump scheduled each microsecond. -/
def dumping (n : Nat) (s : State) : State :=
  { weaveMod (fun w => { w with memplan := [{ id := 9, kind := 4, clauses := 0, base := 0x10000, len := 0x40 + n }] }) s with
    tly := { Tly.reset with cfg := { TallyCfg.reset with region := 9, period := 1 } }, timer := 2500 }

theorem test_tally_dump :
    ((dumping 4096 (at0 0 {})).tallyRing.isSome && (dumping 4096 (at0 0 {})).dumpBytes == 1792 &&
      gives .tallyDump (dumping 4096 (counted (at0 0 {}))) (fun s => s.tly.seq == 1 && s.tly.ringWrite == 1792 &&
        s.hbmBytes 0x10048 8 == leBytes 8 2000 && s.hbmBytes 0x10080 8 == leBytes 8 7) &&
      gives .tlyDumpNow (dumping 1024 (at0 0 {})) (fun s => s.tly.seq == 0 && s.tly.dropped == 1) &&
      gives .tallyDump (at0 0 {}) (fun s => s.tly == Tly.reset)) = true := by decide +kernel

theorem test_tally_dump_wrap :
    gives .tlyDumpNow (let s := dumping 4096 (at0 0 {}); { s with
        tly := { s.tly with ringWrite := 3584 }, hbm := Mem.cells 0x10010 (leBytes 8 3584) })
      (fun s => s.tly.ringWrite == 4096 + 1792 && s.tly.dumps == 1) = true := by decide +kernel

/-- A cell in a state. -/
def cellIn (st : CellSt) : NoiseCell :=
  { st := st, pend := none, isolations := [], health := HealthAt.start, apt := 824, rct := 81 }

/-- The West hopper with every cell in a state, cell 0 with a unit pending. -/
def celled (st : CellSt) (g : Hopper → Hopper) (s : State) : State :=
  { s with hopW := g { Hopper.reset with cells :=
      { cellIn st with pend := some (List.replicate 32 9) } :: List.replicate 15 (cellIn .healthy) } }

theorem test_entropy_block :
    (gives (.entropyBlockComplete 0 (List.replicate 256 3)) (celled .healthy id (at0 0 {}))
        (fun s => s.hopW.units == [List.replicate 32 9] && (s.cell 0).st == .healthy && ((s.cell 0).pend.map (·.length)) == some 32) &&
      gives (.entropyBlockComplete 0 (List.replicate 256 3)) (celled .retest id (at0 0 {})) (fun s => s.hopW.units == [])) = true := by
  decide +kernel

theorem test_health_test_fail :
    (gives (.healthTestFail 0 .apt) (celled .healthy id (at0 0 {})) (fun s => (s.cell 0).st == .isolated && s.hopW.apt == 1 &&
        (s.cell 0).pend == none && !s.hopW.entFail) &&
      gives (.healthTestFail 0 .rct) (celled .healthy (fun h => { h with cells := h.cells.take 8 ++ List.replicate 8 (cellIn .isolated) }) (at0 0 {}))
        (fun s => s.hopW.entFail && s.dev.irqStat == 8)) = true := by decide +kernel

theorem test_cell_lockout :
    gives (.healthTestFail 1 .rct) { celled .healthy (fun h => { h with cells := h.cells.set 1 { cellIn .healthy with isolations := [5, 6] } }) (at0 0 {}) with timer := 1000000005 }
      (fun s => (s.cell 1).st == .locked && s.hopW.lockouts == 1) = true := by decide +kernel

theorem test_cell_retest :
    gives (.cellRetest 0) (celled .isolated id (at0 0 {})) (fun s => (s.cell 0).st == .retest) = true := by decide

theorem test_startup_test :
    (gives (.startupTestComplete 0 (List.replicate 128 0x55)) (celled .retest id (at0 0 {})) (fun s => (s.cell 0).st == .healthy) &&
      gives (.startupTestComplete 0 (List.replicate 128 0)) (celled .startup id (at0 0 {}))
        (fun s => (s.cell 0).st == .isolated && s.hopW.startupErr == 1)) = true := by decide +kernel

theorem test_hop_cmd :
    (gives (.hopCmdRetest .west) (celled .locked id (at0 0 {})) (fun s => (s.cell 0).st == .retest && (s.cell 1).st == .healthy) &&
      gives (.hopCmdCapture .west) (celled .healthy id (at0 0 {})) (fun s => s.hopW.capturing == none) &&
      gives (.hopCmdCapture .west) (dbg 2 (celled .healthy (fun h => { h with capAddr := 0x40 }) (at0 0 {})))
        (fun s => s.hopW.capturing == some (0, 0x1000) && (s.cell 0).st == .capture)) = true := by decide +kernel

theorem test_raw_capture :
    ((0 : Nat) + 131072 ≤ hbmUserEnd ∧ (at0 0 {}).hbmAsleep 0 131072 = false ∧ (at0 0 {}).bad = [] ∧
      (celled .capture (fun h => { h with capturing := some (0, 0) }) (at0 0 {})).hopW.capturing = some (0, 0)) := by decide +kernel

theorem test_entropy_read :
    Carries 0x60 (.entropyRead 0 none) (cmd 0x60 0 [0x100]) (fin0 0 0 0 0) ∧
    Carries 0x60 (.entropyRead 0 none) (cmd 0x60 0x10005 [0x100]) (fin0 1 0 0 0) ∧
    Carries 0x60 (.entropyRead 0 none) { cmd 0x60 0x10005 [0x100] with
        hopW := { Hopper.reset with entFail := true }, hopE := { Hopper.reset with entFail := true } } (fin0 2 0 0 0) ∧
    Carries 0x60 (.entropyRead 0 none) (fed 3 (cmd 0x60 0x10005 [0x100]))
      (fun s => fin0 0 5 0 0 s && s.out == [Output.hostWrite 0x100 (List.replicate 5 7)] && s.hopW.units.length == 2 && s.hopW.deliv == 1) :=
  ⟨carries (by decide +kernel), carries (by decide +kernel), carries (by decide +kernel), carries (by decide +kernel)⟩

theorem test_entropy_read_waits :
    Carries 0x60 (.entropyRead 0 none) (let s := fed 3 (cmd 0x60 0x10005 [0x100]); { s with hopW := { s.hopW with reserve := 3 } })
      (fun s => (s.cmd 0).bind (·.fin) == none && s.hopW.units.length == 3) := carries (by decide +kernel)

/-- Sampler settings: a ring of 16 descriptors at 0x4000, its tail word at 0x8000, clause 0. -/
def tks0 : Tks := { Tks.reset with ring := 0x4000, tail := 0x8000 }

/-- Regions for them. -/
def sampling (k : Tks) (s : State) : State :=
  { weaveMod (fun w => { w with memplan := [{ id := 1, kind := 0, clauses := 1, base := 0, len := 0x8000 },
        { id := 2, kind := 2, clauses := 1, base := 0x8000, len := 0x1000 }] }) s with tksW := k, hbm := Mem.cells 0x8000 [3] }

theorem test_tks_enable :
    (gives (.tksEnable .west 0x80000004) (sampling tks0 (at0 0 {}))
        (fun s => s.tksW.enable && s.tksW.head == 3 && s.tksW.lSize == 4 && s.tksW.lTail == 0x8000) &&
      gives (.tksEnable .west 0x80010004) (sampling tks0 (at0 0 {})) (fun s => s.tksW.cfgErr && !s.tksW.enable)) = true := by
  decide +kernel

/-- That sampler enabled, its head at h and its tail read as t. -/
def on (h t : BitVec 32) : Tks :=
  { tks0 with enable := true, head := h, tailCount := t, busy := h != t, lRing := 0x4000, lTail := 0x8000, lSize := 4 }

theorem test_tks_disable :
    gives (.tksDisable .west 0) (sampling (on 3 4) (at0 0 {})) (fun s => !s.tksW.enable && !s.tksW.busy) = true := by decide +kernel

theorem test_tks_tail :
    (gives (.tksTailPoll .west) (sampling (on 2 2) (at0 0 {})) (fun s => s.tksW.tailCount == 3 && s.tksW.busy) &&
      gives (.tksKick .west) (sampling (on 0xFFFFFFF0 0xFFFFFFF0) (at0 0 {})) (fun s => !s.tksW.enable && s.tksW.overrun) &&
      gives (.tksKick .west) (sampling tks0 (at0 0 {})) (fun s => s.tksW == tks0)) = true := by decide +kernel

/-- Three fp32 logits 1.0, 2.0, 2.0 at 0x100, and a descriptor for them in ring place 2: temperature 0, result at 0x200. -/
def logits : Mem :=
  Mem.cells 0x100 (leBytes 4 0x3F800000 ++ leBytes 4 0x40000000 ++ leBytes 4 0x40000000) ++
    Mem.cells 0x4080 ([0, 0, 0, 0, 3, 0, 0, 0] ++ leBytes 8 0x100 ++ zeros 32 ++ leBytes 8 0x200) ++ Mem.cells 0x8000 [3]

theorem test_tks_request :
    gives (.tksRequest .west) { sampling (on 2 3) (at0 0 {}) with hbm := logits }
      (fun s => s.tksW.head == 3 && s.tksW.lastStatus == 0 && !s.tksW.busy && s.hbmBytes 0x200 10 == [1, 0, 0, 0, 1, 0, 0, 0, 0, 4] &&
        s.hbmBytes 0x8000 8 == [3, 0, 0, 0, 3, 0, 0, 0]) = true := by decide +kernel

theorem test_tks_request_bad :
    gives (.tksRequest .west) { sampling (on 2 3) (at0 0 {}) with hbm := [(0x4082, 1), (0x8000, 3)] }
      (fun s => s.tksW.head == 3 && s.tksW.lastStatus == 0x71 && s.hbmBytes 0x8004 4 == [3, 0, 0, 0]) = true := by decide +kernel

theorem test_tks_zero :
    zeroTemp 0x80000000 = true ∧ ([0x3F800000, 0xFF800000, 0x3F800000].map logitVal)[0]? = some (some (2 ^ 149)) ∧
      (tksPipe [0x3F800000, 0xFF800000, 0x3F800000] 0x80000000 1 0 0).token = 0 := by decide +kernel

/-- A message of a queue, already spelt out in 8 bytes. -/
def msg8 (vc : BitVec 2) : Msg :=
  { id := 4, vc := vc, resp := false, dst := 7, dstNode := 0x8000, src := 1, srcNode := 0, body := .done false, wire := [1, 2, 3, 4, 5, 6, 7, 8], buf := none }

/-- Device 1: every link of role 1, device 7 reached over link 1. -/
def links0 : LinksRec :=
  { devId := 1, roles := List.replicate 32 1, fwNext := List.replicate 4 0xFFFF, routes := [{ first := 7, last := 7, mask := 2 }] }

/-- The link carries data: keyed in no epoch, with a role of 1 at both ends, all credits held. -/
def dataLink (g : Link → Link) (s : State) : State :=
  weaveMod (fun w => { w with links := some links0 })
    (trained (fun k => g { k with state := .keyed, peerRole := 1, credits := fullCredit, owed := List.replicate 9 0, nextFsn := 5, rxFsn := 9 }) s)

/-- The frame that a step sent as its first output. -/
def sent (p : Frame → Bool) (s : State) : Bool :=
  match s.out with
  | .linkFrame 0 f :: _ => p f
  | _ => false

theorem test_link_transmit :
    (gives (.linkFrameTransmit 0) (dataLink (fun k => { k with sendNak := some 9, txq := [msg8 0] }) (at0 0 {}))
        (fun s => sent (fun f => f.kind == 2 && f.ack == 9) s && (s.link 0).nextFsn == 5) &&
      gives (.linkFrameTransmit 0) (dataLink (fun k => { k with txq := [msg8 0] }) (at0 0 {}))
        (fun s => sent (fun f => f.kind == 0 && f.fsn == 5 && f.ack == 8 && f.len == 2) s && (s.link 0).nextFsn == 6 &&
          (s.link 0).replayBuf.map (·.fsn) == [5] && (s.link 0).txq == []) &&
      gives (.linkFrameTransmit 0) (dataLink id (at0 0 {})) (fun s => sent (fun f => f.kind == 1 && f.last) s && (s.link 0).nextFsn == 5)) = true := by
  decide +kernel

/-- A frame with a number. -/
def frame (kind : BitVec 2) (fsn : BitVec 16) : Frame :=
  { fsn := fsn, ack := 4, vc := 0, cls := false, resp := false, kind := kind, last := true, epoch := false, len := 0, credits := 0,
    payload := [] }

theorem test_link_resend :
    gives (.linkFrameTransmit 0) (dataLink (fun k => { k with resend := [frame 0 3, frame 0 4] }) (at0 0 {}))
      (fun s => sent (fun f => f.fsn == 3) s && (s.link 0).resend.map (·.fsn) == [4]) = true := by decide +kernel

/-- A keyless group of one frame; its tag is SHAKE256 of the 8 header bytes and 256 bytes of 0. -/
def group1 (f : Frame) (tag : Nat) : RxGroup := { frames := [f], tag := leBytes 16 tag, fecOk := true }

theorem test_link_receive :
    (gives (.linkGroupReceive 0 (group1 (frame 0 9) 0x1da48c1d5a38b3274fb4fe957ae4d198)) (dataLink (fun k => { k with replayBuf := [frame 0 4, frame 0 5] }) (at0 0 {}))
        (fun s => (s.link 0).rxFsn == 10 && (s.link 0).replayBuf.map (·.fsn) == [5]) &&
      gives (.linkGroupReceive 0 (group1 (frame 0 8) 0xd203d570bbc0133e84426646f8fac23e)) (dataLink id (at0 0 {})) (fun s => (s.link 0).rxFsn == 9 && (s.link 0).sendNak == none)) = true := by
  decide +kernel

theorem test_link_receive_bad :
    (gives (.linkGroupReceive 0 { frames := [frame 0 9], tag := [], fecOk := false }) (dataLink id (at0 0 {}))
        (fun s => (s.link 0).rxFsn == 9 && (s.link 0).sendNak == some 9 && (s.link 0).uncorr == 1) &&
      gives (.linkGroupReceive 0 { frames := [frame 0 9], tag := [], fecOk := true }) (dataLink id (at0 0 {}))
        (fun s => (s.link 0).rxFsn == 9 && (s.link 0).sendNak == some 9 && (s.link 0).tagFail == 1) &&
      gives (.linkGroupReceive 0 { frames := [], tag := [], fecOk := true }) (at0 0 {}) (fun s => (s.link 0) == Link.reset)) = true := by
  decide +kernel

theorem test_link_nak :
    (gives (.linkNak 0 5) (dataLink (fun k => { k with replayBuf := [frame 0 4, frame 0 5, frame 0 6] }) (at0 0 {}))
        (fun s => (s.link 0).resend.map (·.fsn) == [5, 6] && (s.link 0).replayBuf.map (·.fsn) == [5, 6]) &&
      gives (.linkNak 0 5) (dataLink (fun k => { k with nakFsn := some 5, nakCount := 7 }) (at0 0 {}))
        (fun s => !(s.link 0).trained && (s.link 0).state == .holding && (s.link 0).retrains == 1)) = true := by decide +kernel

theorem test_link_transit :
    gives (.linkTransit 0) (dataLink (fun k => { k with transit := [msg8 2] }) (at0 0 {}))
      (fun s => (s.link 0).transit == [] && (s.link 1).txq.length == 1) = true := by decide +kernel

theorem test_link_signal_detect :
    gives (.linkSignalDetect 3) (at0 0 {}) (fun s => (s.link 3).state == .training && (s.link 2).state == .off) = true := by decide +kernel

/-- Link 0 in a state. -/
def linkIn (st : LinkState) (s : State) : State := { s with links := (List.replicate 32 Link.reset).set 0 { Link.reset with state := st } }

theorem test_link_training_complete :
    (gives (.linkTrainingComplete 0 0) (linkIn .training (at0 0 {})) (fun s => (s.link 0).trained && (s.link 0).state == .opened && s.out.length == 1) &&
      gives (.linkTrainingComplete 0 4) (linkIn .training (at0 0 {})) (fun s => !(s.link 0).trained && (s.link 0).laneBad == 4)) = true := by
  decide +kernel

theorem test_link_hello_refused :
    gives (.linkHello 0 { devId := 7, role := 1, protect := true, keyId := List.replicate 32 1 }) (trained id (at0 0 {}))
      (fun s => (s.link 0).state == .refused && (s.link 0).refuse == 1 && (s.link 0).peerId == 7) = true := by decide +kernel

theorem test_link_setup_no_data :
    (gives (.linkHello 0 { devId := 7, role := 1, protect := false, keyId := List.replicate 32 1 }) (trained id (at0 0 {}))
        (fun s => (s.link 0).refuse == 6) &&
      gives (.linkKeySetupRetry 0) (trained (fun k => { k with met := true }) (at0 0 {})) (fun s => (s.link 0).refuse == 6) &&
      gives (.glkCmdRekey 0) (trained (fun k => { k with met := true, state := .keyed }) (at0 0 {})) (fun s => (s.link 0).refuse == 6)) = true := by
  decide +kernel

theorem test_link_setup :
    (match (fed 4 (trained (fun k => { k with met := true }) (at0 0 {}))).draw 96 with
      | .ok l _ => l == List.replicate 96 7
      | _ => false) = true ∧
    (trained (fun k => { k with met := true, state := .keyed }) (at0 0 {})).linkMet 0 = true ∧ (Link.reset).switched = true := by decide +kernel

/-- Progress of a set-up. -/
def setup0 : KeySetup :=
  { nonce := [], dkSeed := [], sentStep1 := [], peerStep1 := none, peerKey := [], peerId := [], ourSecret := [], ourStep2 := [] }

theorem test_link_key_message :
    gives (.linkKeySetupMessage 0 (.step1 (List.replicate 3184 0) (List.replicate 3184 0) [] (List.replicate 32 0) (List.replicate 1568 0)))
      (trained (fun k => { k with met := true, setup := some setup0 }) (at0 0 {}))
      (fun s => (s.link 0).refuse == 2 && (s.link 0).setup == none) = true := by decide +kernel

theorem test_link_down :
    (gives (.linkDown 0) (linkIn .keyed (at0 0 {})) (fun s => (s.link 0).state == .holding && (s.link 0).retrains == 1) &&
      gives (.glkCmdRetrain 0) (linkIn .opened (at0 0 {})) (fun s => (s.link 0).state == .training) &&
      gives (.linkHoldExpire 0) (linkIn .holding (at0 0 {})) (fun s => (s.link 0).state == .failed && s.dev.irqStat == 1) &&
      gives (.linkHoldExpire 0) (linkIn .keyed (at0 0 {})) (fun s => (s.link 0).state == .keyed)) = true := by decide +kernel

theorem test_link_switch_off :
    (gives (.linkSwitchOff 0) (trained (fun k => { k with stopping := true }) (at0 0 {})) (fun s => (s.link 0).state == .off && !(s.link 0).trained) &&
      gives (.linkSwitchOff 0) (trained id (at0 0 {})) (fun s => (s.link 0).state == .opened)) = true := by decide +kernel

theorem test_link_wake :
    (gives (.glkCmdWake 0) (linkIn .off (at0 0 {})) (fun s => (s.link 0).wake && s.out == [Output.wakePattern 0 (((List.range 16).map fun i => (0xAA57 : BitVec 16).getLsbD (15 - i)) ++ List.replicate 16 true ++ List.replicate 8 false)]) &&
      gives (.wakePatternTimeout 0) (trained (fun k => { k with wake := true }) (at0 0 {})) (fun s => !(s.link 0).wake)) = true := by decide +kernel

theorem test_register_write :
    (gives (.registerWrite 0x20 (.bar0 4) 0xFF) (at0 0 {}) (fun s => s.dev.irqMask == 0x7F) &&
      gives (.registerWrite 0x22 (.bar0 4) 0xFF) (at0 0 {}) (fun s => s.dev.irqMask == 0 && s.dev.unsupp && s.out == [Output.unsupportedRequest]) &&
      gives (.registerWrite 0x20 (.bar0 2) 0xFF) (at0 0 {}) (fun s => s.dev.irqMask == 0 && s.dev.unsupp) &&
      gives (.registerWrite 0x18 (.bar0 4) 3) { at0 0 {} with dev := { Dev.reset with ready := true, irqStat := 5 } } (fun s => s.dev.irqStat == 4) &&
      gives (.registerWrite 8 (.bar0 8) 3) (at0 0 {}) (fun s => s.dev == (at0 0 {}).dev) &&
      gives (.registerWrite 0x114 (.bar0 4) 3) (at0 0 {}) (fun s => s.weave.rbAddr == 0x300000000) &&
      gives (.registerWrite 0 .bar2Size 40) (at0 0 {}) (fun s => s.dev.bar2Log2 == 40) &&
      gives (.registerWrite 0 .bar2Size 29) (at0 0 {}) (fun s => s.dev.bar2Log2 == 36) &&
      gives (.registerWrite 0 .aerStatus 0x100000) { at0 0 {} with dev := { Dev.reset with unsupp := true } } (fun s => !s.dev.unsupp)) = true := by
  decide +kernel

/-- The bytes of a transaction with their check byte. -/
def pl (l : List Byte) : List Byte := l ++ [crc8 l]

/-- The answer that has begun on the bus, as bytes between its marks. -/
def answer (s : State) : List Byte :=
  bitBytes (s.plait.response.filterMap fun x => match x with | .bit b => some b | _ => none)

theorem test_plait :
    (gives (.plaitTransaction (masterSends (pl [0xD0, 0, 0, 0, 0x20, 0, 0, 0, 0, 0x7F]))) (at0 0 {})
        (fun s => s.dev.irqMask == 0x7F && answer s == pl [0] && s.plait.d0 && s.plait.d1) &&
      gives (.plaitTransaction (masterSends (pl [0xD1, 0, 0, 0, 0x20, 0]))) { at0 0 {} with dev := { Dev.reset with ready := true, irqMask := 0x41 } }
        (fun s => answer s == pl [0, 0, 0, 0, 0x41]) &&
      gives (.plaitTransaction (masterSends [0xD1, 0, 0, 0, 0x20, 0, 1])) (at0 0 {}) (fun s => answer s == pl [0x72]) &&
      gives (.plaitTransaction (masterSends (pl [0xD3, 0, 0, 0, 0x20, 0]))) (at0 0 {}) (fun s => s.plait.response == []) &&
      gives .plaitResponseAbandon { at0 0 {} with plait := { Plait.reset with response := [.mark] } } (fun s => s.plait == Plait.reset)) = true := by
  decide +kernel

theorem test_plait_bus :
    (gives (.plaitTransaction [.rails true true]) { at0 0 {} with plait := { Plait.reset with inTxn := true, bits := [true] } }
        (fun s => s.plait.bits == [] && s.plait.ack) &&
      gives (.plaitTransaction []) { at0 0 {} with plait := { Plait.reset with owed := true } } (fun s => s.plait.ack && !s.plait.owed) &&
      gives (.plaitTransaction [.ack true, .ack false])
        { at0 0 {} with plait := { Plait.reset with d0 := true, d1 := true, response := [.mark, .bit true, .mark] } }
        (fun s => s.plait.response == [.bit true, .mark] && !s.plait.d0 && s.plait.d1)) = true ∧
    PlaitIdle Plait.reset ∧ plaitDue (byteBits (pl [0xD1, 0, 0, 0, 0x20, 0])) = true ∧ (at0 0 {}).plaitServes = true ∧
    (at0 0 {}).plaitAddr = 0x68 ∧ plaitDue [true] = false := by unfold PlaitIdle; decide +kernel

theorem test_crc8 : crc8 [0x31, 0x32, 0x33, 0x34, 0x35, 0x36, 0x37, 0x38, 0x39] = 0xF4 := by decide +kernel

/-- Mailbox West asked for 8 bytes of tile 0's SRAM at offset 16. -/
def asking (flags : Byte) (s : State) : State :=
  { tile0 (fun T => { T with sram := [(17, 9)] }) s with
    mboxW := { Mbox.reset with req := [1, flags] ++ zeros 6 ++ leBytes 8 16 ++ leBytes 8 8 ++ zeros 40 } }

theorem test_mailbox :
    (gives (.mailboxRequest .west false) (asking 0 (at0 0 {}))
        (fun s => s.mboxW.done && s.mboxW.status == 0 && s.mboxW.window == [(1, 9)] && !s.mboxW.busy) &&
      gives (.mailboxRequest .west false) (asking 8 (at0 0 {})) (fun s => s.mboxW.done && s.mboxW.status == 0x72) &&
      gives (.mailboxRequest .west true) (asking 0 (at0 0 {})) (fun s => !s.mboxW.done && s.alm.dbgRun == 1) &&
      (mbReq (asking 0 (at0 0 {})).mboxW.req).reservedOk && (asking 0 (at0 0 {})).logicalOf 0 == some 0) = true := by decide +kernel

theorem test_mailbox_hold :
    (gives (.mailboxRequest .west false) (asking 1 (at0 0 {})) (fun s => s.mboxW.done && s.mboxW.window == [(1, 9)] && s.mboxW.holds == []) &&
      gives (.mailboxRequest .west false) (asking 1 (tile0 (fun T => { T with dmas := [dma8 false] }) (at0 0 {})))
        (fun s => s.mboxW.busy && !s.mboxW.done && s.mboxW.holds == [0] && (s.issuable 0 0 0 {}).isNone)) = true := by decide +kernel

/-- The bits of DBG_ACCESS, the first to be shifted first: op, width, offset, data. -/
def tapWord (op wide off data : Nat) : List Bool :=
  tab 104 fun i => (BitVec.ofNat 104 (op * 2 ^ 102 + wide * 2 ^ 101 + off * 2 ^ 64 + data)).getLsbD i

/-- The TAP with a register selected. -/
def tapIr (ir : BitVec 8) (s : State) : State := { s with tap := { s.tap with ir := ir } }

theorem test_tap :
    (gives (.tapDbgAccess (.dr (tapWord 2 0 0x20 0x41))) (tapIr 0x20 (at0 0 {})) (fun s => s.alm.dbgRun == 1 && s.dev.irqMask == 0) &&
      gives (.tapDbgAccess (.dr (tapWord 2 0 0x20 0x41))) (tapIr 0x20 (dbg 1 (at0 0 {}))) (fun s => s.dev.irqMask == 0x41 && s.tap.status == 0) &&
      gives (.tapDbgAccess (.dr (tapWord 1 1 0x20 0))) (tapIr 0x20 { dbg 1 (at0 0 {}) with dev := { Dev.reset with ready := true, irqMask := 0x41 } })
        (fun s => s.tap.data == 0x41)) = true := by decide +kernel

theorem test_tap_registers :
    (gives (.tapDbgAccess (.ir 0x20)) (at0 0 {}) (fun s => s.tap.ir == 0x20) &&
      gives (.tapDbgAccess .trst) (tapIr 0x20 (at0 0 {})) (fun s => s.tap.ir == 2) &&
      gives (.tapDbgAccess (.dr [true, false, true])) (tapIr 0x55 (at0 0 {})) (fun s => s.tap.tdo == [false, true, false])) = true := by
  decide +kernel

theorem test_tap_token_hypotheses : ((tapIr 0x11 (at0 0 {})).tap.ir == 0x11 && (tapIr 0x11 (at0 0 {})).up) = true ∧
    (List.replicate 11008 true).length = 11008 := ⟨by decide, List.length_replicate⟩

theorem test_tap_cmd :
    gives (.tapDbgCmd 4) (dbg 2 (tile0 (fun T => { T with dbg := { T.dbg with held := true, hold := true } }) (at0 0 {})))
      (fun s => s.sec.debug == 0 && !(s.tile 0).dbg.held) = true := by decide +kernel

theorem test_interrupt_vector :
    (((({ at0 0 {} with dev := { Dev.reset with irqMask := 4 } } : State).raise 2).out == [Output.msix 0]) &&
      (({ at0 0 {} with dev := { Dev.reset with irqMask := 4, irqStat := 4 } } : State).raise 2).out == [] &&
      ((at0 0 {}).raise 2).out == [] && ((at0 0 {}).raise 2).dev.irqStat == 4) = true := by decide +kernel

theorem test_kept : Kept (at0 0 {}) := by unfold Kept; decide +kernel

theorem test_kept_step : Kept { at0 0 {} with hbm := [(64, 1)], pending := [Instr.resetNAssert] } ∧
    (match Sys2Proof.Machine.step { at0 0 {} with hbm := [(64, 1)], pending := [Instr.resetNAssert] } with
      | .next s => s.pending.isEmpty && s.hbm == [(64, 1)]
      | _ => false) = true := by
  unfold Kept
  decide +kernel

/-! ## Clauses of the statements at their bounds -/

/-- At its bound a calibration step goes on whatever the free bit; one nanosecond earlier only where the bit picks it. -/
theorem test_step_calibration : (∀ b, (({ Calib.reset with step := 1 } : Calib).tick 5000 b).step = 2) ∧
    (∀ b, (({ Calib.reset with step := 1 } : Calib).tick 4999 b).step = if b then 2 else 1) ∧ calBound 1 = 5000 ∧
    (calm (fun k => { k with step := 1 })).tileUp 0 = true := by decide +kernel

theorem test_load_faults :
    Works 0x12 { d := true, a := true, b := true, imm := 0x30000000, lanewise := true } { d := 8, a := 7, b := 10 } .vldx
      (at0 0x12 { d := 8, a := 7, b := 10 }) (fun x => (x.badLane 32 (x.gatherLanes 32)).map (·.addr) == some 7) (faultIs 3) ∧
    Works 0x13 { d := true, a := true, b := true, imm := 0x30000000, lanewise := true } { d := 2, a := 7, b := 10 } .vstx
      (at0 0x13 { d := 2, a := 7, b := 10 }) (fun x => (x.badLane 32 (x.gatherLanes 32)).map (·.addr) == some 7) (faultIs 3) ∧
    Works 0x14 { d := true, a := true, imm := BitVec.allOnes 32 } { d := 9, a := 7 } .sld (at0 0x14 { d := 9, a := 7 })
      (fun x => x.scalarAddr % 8 == 7) (fun s => faultIs 3 s && (s.tile 0).fault.addr == 7) ∧
    Works 0x16 { d := true, a := true, imm := BitVec.allOnes 32 } { d := 9, a := 7 } .sldw (at0 0x16 { d := 9, a := 7 })
      (fun x => x.scalarAddr % 4 == 3) (faultIs 3) :=
  ⟨works (by decide), works (by decide), works (by decide), works (by decide)⟩

/-- Element 1 of v1 is 9: the high nibble of byte 64 + 4, sign-extended. -/
theorem test_vldx_nibble : Works 0x12 { d := true, a := true, b := true, imm := 0x30000000, lanewise := true }
    { d := 8, a := 6, b := 1, imm := 0x30000000 } .vldx (sram64 [0, 0, 0, 0, 0xC3] (at0 0x12 { d := 8, a := 6, b := 1, imm := 0x30000000 }))
    (fun x => laneBits 0x30000000 == 4 && x.badLane 4 (x.gatherLanes 4) == none) (vIs 8 [0xFFFFFFFC, 0xFFFFFFFC, 0]) := works (by decide)

/-- The answer that refuses request 7. -/
def refusal7 : Msg :=
  { id := 7, vc := 0, resp := true, dst := 0, dstNode := 0, src := 9, srcNode := 0, body := .refused, wire := [], buf := none }

theorem test_dma_refused :
    let w := tile0 (fun T => { T with dmas := [{ dma8 false with via := .sent [7] }] }) { at0 0 {} with resps := [refusal7] }
    (gives (.dmaTransferComplete 0 0 3) w (fun s => faultIs 4 s && (s.tile 0).dmas == [] && s.hbm == [] && (s.tile 0).sram == []) &&
      w.viaReady (.sent [7]) && w.response 7 == some .refused && !w.dmaBehind 0 (w.members 0) (dma8 false)) = true := by decide

theorem test_dmaw_waits : Works 0x18 { d := true, imm := 0xFFFF } { d := 3, imm := 8 } .dmaw
    (tile0 (fun T => { T with dmas := [dma8 false] }) (at0 0x18 { d := 3, imm := 8 }))
    (fun x => x.T.dmas.any fun e => e.slot == 0 && bitAt 8 e.tag) (fun s => pcIs 0 s && (s.tile 0).dmas == [dma8 false]) := works (by decide)

theorem test_hbm_atomic_fails :
    let s := { at0 0 {} with dev := { Dev.reset with ready := true, eastAwake := false },
                             atoms := [{ atomOf 0 1 with addr := BitVec.ofNat 64 (6 * stackSize), hbm := 6 * stackSize }] }
    let r := { at0 0 {} with resps := [refusal7], atoms := [{ atomOf 0 1 with via := .sent [7] }] }
    (s.hbmAsleep (6 * stackSize) 4 && gives (.hbmAtomic 0) s (fun u => faultIs 5 u && u.hbm == []) &&
      gives (.hbmAtomic 0) r (fun u => faultIs 4 u && u.hbm == [] && u.atoms == []) &&
      gives (.hbmAtomic 0) { r with atoms := [{ atomOf 0 1 with via := .unreachable }] } (faultIs 4)) = true := by decide +kernel

/-- Clause 0 granted key slot 0, whose entry has met a retention fault. -/
def tornKey (s : State) : State :=
  let s := keyed s
  { s with sec := { s.sec with store := s.sec.store.map fun (e : KeyEntry) => { e with torn := true } } }

/-- The phrase rounds under slot 0. -/
def rounds0 : Phrase := { phrase0 with rctx := { phrase0.rctx with slot := some 0 } }

theorem test_stochastic :
    Works 0x31 use2 { d := 8, a := 4, b := 4, imm := 4 } .vsub (keyed (small (wordOf 0x31 { d := 8, a := 4, b := 4, imm := 4 }) rounds0))
      (fun x => x.rctxKey.isSome && !x.laneDrawWaits x.ph.rctx.lane) (pcIs 1) ∧
    Works 0x31 use2 { d := 8, a := 4, b := 4, imm := 4 } .vsub (tornKey (small (wordOf 0x31 { d := 8, a := 4, b := 4, imm := 4 }) rounds0))
      (fun x => x.rctxKey == none && x.s.hasKey 4 && !x.s.keyPasses 4 && x.s.agrees (.entry 4))
      (fun s => faultIs 10 s && !s.hasKey 4 && s.sec.ksBad == 1) :=
  ⟨works (by decide +kernel), works (by decide +kernel)⟩

theorem test_random_torn :
    Works 0x70 { d := true, a := true, b := true, c := true, imm := 0x7F, lanewise := true } { d := 8, a := 4, b := 6, c := 10 } .rdraw
      (tornKey (at0 0x70 { d := 8, a := 4, b := 6, c := 10 })) (fun x => x.s.pgKey x.c 0 == none)
      (fun s => faultIs 10 s && s.sec.store == []) ∧
    Works 0x71 { a := true, b := true, c := true, imm := 0x1F } { a := 4, b := 6, c := 1 } .rctx (at0 0x71 { a := 4, b := 6, c := 1 })
      (fun x => x.s.grantedKey x.c 0 == none) (faultIs 10) :=
  ⟨works (by decide +kernel), works (by decide +kernel)⟩

theorem test_vcvt_stochastic : Works 0x3A { d := true, a := true, imm := 0x00FF01FF, lanewise := true } { d := 8, a := 4, imm := 0x120 } .vcvt
    (keyed (small (wordOf 0x3A { d := 8, a := 4, imm := 0x120 }) rounds0))
    (fun x => x.rctxKey.isSome && !x.laneDrawWaits x.ph.rctx.lane && cvtOk 0 2) (pcIs 1) := works (by decide +kernel)

/-- A block with a NaN has no exponent; 2^200 lies past the greatest one. -/
theorem test_block_exponents : blockExp false [.nan] = none ∧ blockExp false [.fin false 1 200] = some 127 ∧
    blockExp true [.fin false 1 (-200)] = some (-127) ∧ blockLow true [.fin false 1 (-200)] = true := by decide

theorem test_orun_forms :
    Works 0x51 { a := true, imm := 0x1F3 } { a := 4, imm := 0x11 } .orun
      (weaveMod (fun w => { w with policy := { maxLoose := 1 } }) (osi id (at0 0x51 { a := 4, imm := 0x11 })))
      (fun x => x.T.os.run == none && x.s.policy.maxLoose == 1) (fun s => (s.tile 0).os.run.map (fun r => (r.kind, r.stale)) == some (1, 1)) ∧
    Works 0x51 { a := true, imm := 0x1F3 } { a := 4, imm := 2 } .orun
      (weaveMod (fun w => { w with policy := { freeRun := 1 } }) (osi id (at0 0x51 { a := 4, imm := 2 })))
      (fun x => x.s.policy.freeRun != 0) (fun s => (s.tile 0).os.run.map (·.kind) == some 2) ∧
    Works 0x50 { imm := 0x7 } {} .osel (osi (fun o => { o with run := some (run5 0 true) }) (at0 0x50 {})) (fun x => x.T.os.run.isSome)
      (pcIs 0) :=
  ⟨works (by decide), works (by decide), works (by decide)⟩

/-- A run of tile 0 whose anchors have no key: the random fault, and the run ends. -/
theorem test_phase_no_key :
    let s := osi (fun o => { o with hasAnchors := true, anchorStrands := [1], anchorSt := [false], run := some (run5 0 true) }) (at0 0 {})
    ((s.tile 0).os.anchorsIn 1 != [] && s.anchorKey 0 (run5 0 true) == none &&
      gives (.strandPhaseComplete 0) s (fun u => (u.tile 0).os.run == none && (u.tile 0).os.phase == 0 && (u.tile 0).fault.cause == 10)) = true := by
  decide +kernel

/-- Tile 1, bridged to tile 0, has begun no phase since tile 0's last: tile 0's next phase waits for it. -/
theorem test_phase_stop_waits :
    let s := osi (fun o => { o with run := some (run5 0 false), phase := 1 }) (bridged (at0 0 {}))
    (!s.phaseStopOpen 0 0 && (s.bridgeGroup 0).contains 1 && gives (.phaseStopRelease 0) s (fun u => u == s)) = true := by decide +kernel

theorem test_spin_order :
    let s := { osi id (bridged (at0 0 {})) with spins := [{ spin0 with word := spinWord false 0 1 1 }, spin0] }
    (gives (.spinEvent 1) s (fun u => u == s) && spinWord true 0 1 1 == spin0.word) = true := by decide +kernel

theorem test_osier_waits :
    Works 0x55 {} {} .oswap (tile0 (fun T => { T with cal := { T.cal with step := 2 } }) (osi id (at0 0x55 {})))
      (fun x => x.T.os.run == none && x.T.cal.step == 2) (fun s => (s.tile 0).os.swapPending && !(s.tile 0).os.bank) ∧
    Works 0x53 { a := true, b := true, imm := 0x3FF } { a := 6, b := 2, imm := 1 } .owf
      (tile0 (fun T => { T with cal := { T.cal with step := 1 } }) (osi id (at0 0x53 { a := 6, b := 2, imm := 1 })))
      (fun x => x.T.os.run == none && x.T.cal.step == 1)
      (fun s => (s.tile 0).os.ext == [] && (s.tile 0).os.writes == [{ isBias := false, first := 2, vals := [0] }]) ∧
    Works 0x53 { a := true, b := true, imm := 0x3FF } { a := 6 } .owf (osi id (at0 0x53 { a := 6 })) any (pcIs 1) ∧
    Works 0x60 { a := true } { a := 6 } .nld (osi (fun o => { o with run := some (run5 0 true) }) (at0 0x60 { a := 6 })) any (pcIs 0) ∧
    Works 0x62 { a := true } { a := 6 } .nwr (osi (fun o => { o with run := some (run5 0 true) }) (at0 0x62 { a := 6 })) any (pcIs 0) :=
  ⟨works (by decide +kernel), works (by decide +kernel), works (by decide +kernel), works (by decide +kernel), works (by decide +kernel)⟩

/-- A stop of no participants: an arrival completes its generation at once. -/
theorem test_stop_idle : Works 0x80 { imm := 0xF } { imm := 3 } .arrive
      (tile0 (fun T => { T with partc := T.partc.set 3 0 }) (at0 0x80 { imm := 3 })) (fun x => x.s.stopIdle [0] 3)
      (fun s => (s.tile 0).arr.getD 3 [7] == [] && s.genOf 0 3 == 2 && (s.phraseAt 0 0).map (fun ph => ph.arrived.getD 3 none) == some (some 1)) ∧
    Works 0x82 { a := true, imm := 0xF } { a := 3, imm := 15 } .stopn (at0 0x82 { a := 3, imm := 15 }) any
      (fun s => s.stopIdle [0] 15 && (s.tile 0).arr.getD 15 [7] == []) :=
  ⟨works (by decide), works (by decide)⟩

theorem test_fsend_wide : Works 0x90 { a := true, b := true, imm := 0x7FF, lanewise := true } { a := 2, b := 6, imm := 0x405 } .fsend
    (folded 1 (at0 0x90 { a := 2, b := 6, imm := 0x405 })) (fun x => x.s.foldRec 5 == some (foldRec0 1))
    (fun s => ((s.foldSt (foldRec0 1)).nodes.getD 0 FoldNode.empty).own2.map (fun e => e.g.vals.take 3) ==
      [[0x7FFFFFFFFFFFFFFC, 0x7FFFFFFFFFFFFFFC, 0]]) := works (by decide +kernel)

/-- A descriptor whose fence waits for the command in progress is kept, and starts as that one's record is written. -/
theorem test_command_held :
    let d : List Byte := [0x03, 1, 9, 0] ++ List.replicate 60 0
    let s := { queued with started := [{ cmd0 0x03 0 [] with queue := 3, fin := some { status := 0, detail0 := 0, detail1 := 0, detail2 := 0 } }], nextId := 1 }
    (gives (.commandFetch 3 (.ok d)) s (fun u => u.started.length == 1 && (u.queue 3).held == some (d, none) && (u.queue 3).sqHead == 1 &&
        u.dev.qTurn == 4) &&
      gives (.completionRecordWrite 0) { s with queues := s.queues.modify 3 fun q => { q with held := some (d, none) } }
        (fun u => u.started.map (fun c => (c.id, c.desc, c.fin)) == [(1, d, none)] && (u.queue 3).held == none)) = true := by decide +kernel

/-- Queue 3 has the turn only when those before it have nothing to fetch. -/
theorem test_queue_turns :
    let s := { queued with queues := queued.queues.set 5 (queued.queue 3) }
    (s.mayFetch 3 && !s.mayFetch 5 && !{ s with dev := { s.dev with qTurn := 4 } }.mayFetch 3 &&
      { s with dev := { s.dev with qTurn := 4 } }.mayFetch 5) = true := by decide +kernel

theorem test_launch_taken : Carries 0x03 (.launch 0) { cmd 0x03 0 [] with clauses := (running id (at0 0 {})).clauses }
    (fun s => s.cmd 0 == some (cmd0 0x03 0 [])) := carries (by decide +kernel)

/-- Key-store entries with these indices and key bytes of 0. -/
def store (l : List Nat) (s : State) : State :=
  { s with sec := { s.sec with store := l.map fun k => { k := k, key := [], digest := [], torn := false } } }

/-- Checks whose two paths disagree when they are next made. -/
def upset (l : List Check) (s : State) : State := { s with sec := { s.sec with upset := l } }

/-- A signed header before an owner key that fails its tag, and one that is another key. -/
theorem test_load_weave_owner :
    let h := Mem.write (Mem.write (Mem.write soundWeave 0x1006 [1]) 0x1010 (leBytes 8 0x800)) 0x1020 (leBytes 8 0x300 ++ leBytes 4 1280)
    let s := { cmd 0x01 0 [0x1000, 0x800] with weave := WeaveSt.reset, clauses := [], hbm := h }
    (s.hdrFail 0x800 (s.hbmBytes 0x1000 256)).isSome = true ∧ hdrSigned (s.hbmBytes 0x1000 256) = true := by decide +kernel

theorem test_contexts_refuse :
    Carries 0x05 (.saveCtx 0) (saving 0x28BF) (fun s => fin0 0x72 0x10 0x28C0 0 s && s.hbm == []) ∧
    Carries 0x06 (.restoreCtx 0) (cmd 0x06 0 [0x1000, 64]) (fin0 0x20 0 0 0) ∧
    Carries 0x06 (.restoreCtx 0) (tile0 (fun T => { T with held := true }) (cmd 0x06 0 [0x1000, 64])) (fin0 0x16 0 0 0) ∧
    Carries 0x06 (.restoreCtx 0) { cmd 0x06 0 [0x1000, 64] with mboxW := { Mbox.reset with holds := [0] } } (fin0 0x16 0 0 0) :=
  ⟨carries (by decide +kernel), carries (by decide +kernel), carries (by decide +kernel), carries (by decide +kernel)⟩

/-- An identity whose tag fails is erased and counted, whether a retention fault struck it or the two paths disagree. -/
theorem test_attest_torn :
    let s := store [0, 1] (cmd 0x10 0 [0x1000, 8032])
    let t := { s with sec := { s.sec with store := s.sec.store.map fun (e : KeyEntry) => { e with torn := true } } }
    (t.hasKey 0 && !t.keyPasses 0 && (t.checkEntry 0).sec.ksBad == 1 && !(t.checkEntry 0).hasKey 0 && (t.checkEntry 0).hasKey 1 &&
      !(upset [.entry 0] s).keyPasses 0 && ((upset [.entry 0] s).checkEntry 0).alm.authRun == 1 &&
      ((upset [.entry 0] s).checkEntry 0).sec.upset == [] && s.keyPasses 0) = true := by decide +kernel

/-- A SESSION_OPEN that waits for the hopper stands among the draws. -/
theorem test_session_waits :
    let s := fed 1 (store [0] (cmd 0x11 0 [0x1000, 1608, 0x2000, 2960]))
    ((match s.ask (.session 0 []) with | .wait => true | _ => false) && !s.sessionWaits 0 &&
      (match (fed 4 s).ask (.session 0 []) with | .ok l t => l.length == 64 && t.hopW.units.length == 2 | _ => false) &&
      !(s.serves true) && s.keyPasses 0) = true := by decide +kernel

theorem test_dbg_waits :
    gives .dbgChallenge (fed 0 (at0 0 {})) (fun s => s.draws == [.challenge] && !s.sec.nonceValid) = true := by decide +kernel

/-- A token whose signature's two paths disagree: one authentication failure beside the refusal. -/
theorem test_dbg_disagrees :
    ((upset [.token] (at0 0 {})).agrees .token = false) ∧
      ((upset [.token] (at0 0 {})).twice .token true).1 = false ∧
      ((upset [.token] (at0 0 {})).twice .token true).2.alm.authRun = 1 := by decide +kernel

theorem test_alarm_sensors :
    (gives (.temperatureOutOfRange { sensor := .vigil, temp := 60 }) { at0 0 {} with alm := { Alm.reset with present := 2, hot := [.tile 1] } }
        (fun s => s.alm.present == 2 && s.alm.hot == [.tile 1]) &&
      gives (.tjSample 0 441) (policyOf 1 (calm id)) (fun s => s.alm.present == 2 && s.alm.hot == [.tile 0] && s.alm.latched == 2) &&
      gives (.tjSample 0 440) { calm id with alm := { Alm.reset with present := 2, hot := [.tile 0] } } (fun s => s.alm.present == 0) &&
      (at0 0 {}).sensorOn (.tile 0) && (at0 0 {}).sensorOn .vigil) = true := by decide +kernel

theorem test_backside_upset :
    (gives (.backsideLight { present := false, upset := [.tag] }) { at0 0 {} with alm := { Alm.reset with present := 4 } }
        (fun s => s.alm.present == 0 && s.sec.upset == [.tag]) &&
      gives (.backsideLight { present := true, upset := [.token] }) (policyOf 0 (at0 0 {}))
        (fun s => s.alm.latched == 0 && s.alm.present == 4 && s.sec.upset == [.token])) = true := by decide +kernel

theorem test_vigil_wake_torn :
    gives (.vigilWake true { temp := 20, torn := [0] })
      (store [0] (policyOf 1 { at0 0 {} with pwr := { Pwr.reset with core := .off, vigil := true } }))
      (fun s => s.sec.store.map (·.torn) == [true]) = true := by decide +kernel

/-- Slot records: a commit keeps the copy before it, and the newest sound copy is in charge at a boot. -/
theorem test_fw_records :
    let f := (slot1 2 (at0 0 {}).fw)
    Recorded f { f with pend := true }.commit ∧ (({ f with pend := true }.commit.latest).map fun (r : FwRecord) => r.pend) = some true := by
  unfold Recorded; decide +kernel

/-- A forwarded image under accept_chain, answered FW_BUSY where a stage is in progress. -/
theorem test_fw_forward_busy :
    let s := fwm (fun f => { f with acceptChain := true, stage := some { cmd := some 4 } }) (trained id (at0 0 {}))
    (gives (.fwForwardReceive 0 image0 true) s (fun u => u.out == [Output.fwAnswer 0 0x63]) &&
      gives (.fwForwardReceive 0 image0 false) (fwm (fun f => slot1 1 { f with stage := some { cmd := none } }) (trained id (at0 0 {})))
        (fun u => u.fw.stage.isNone && u.fw.lastStatus == 0x61 && u.fw.slot1.state == 4)) = true := by decide +kernel

/-- The answers of the next devices are taken before the stage ends. -/
theorem test_fw_stage_answers :
    Carries 0x20 (.fwStage 0 true 0x8) (fwm (fun f => slot1 1 { f with stage := some { cmd := some 0 }, streams := [0, 3] }) (cmd 0x20 0 []))
      (fun s => s.fw.accepted == 1 && s.fw.refused == 8 && s.fw.streams == [] && s.fw.stage.isSome) ∧
    Carries 0x21 (.fwActivate 0 true false) (ended (fwm (slot1 2) (cmd 0x21 0 []))) (fun s => fin0 0x61 0 0 0 s && !s.fw.activeSlot &&
      s.fw.slot1.state == 2) :=
  ⟨carries (by decide +kernel), carries (by decide +kernel)⟩

theorem test_fw_recov_end :
    (gives .fwRecovGo (inRecovery fun f => { f with recCount := 0 }) (fun s => s.fw.recStatus == 0 && s.fw.recDone && s.fw.recNext == 0) &&
      gives (.fwRecovFinish true) (inRecovery fun f => { f with recImage := image0, recNext := 0xC00, recTarget := some true })
        (fun s => s.fw.recStatus == 0 && s.fw.activeSlot && s.fw.state == 1 && s.fw.slot1.state == 3 && s.fw.recTarget == none) &&
      (inRecovery fun f => { f with recTarget := some true }).fw.recSlot) = true := by decide +kernel

theorem test_power_waits :
    Carries 0x40 (.powerState 0) (cmd 0x40 0 []) (fin0 0 0 0 0) ∧
    Carries 0x41 (.halfPowerOff 0) (let s := celled .healthy id (cmd 0x41 1 []); { s with hopE := { s.hopE with units := [[7]] } })
      (fun s => s.hopE.units == [] && (s.link 16).state == .off) :=
  ⟨carries (by decide +kernel), carries (by decide +kernel)⟩

theorem test_wake_forms :
    (gives (.linkWakeDetect 9 (.pattern (BitVec.ofNat 32 (0x3FF * 2 ^ 7))) false)
        { inVigil id with glkWake := { GlkWake.reset with mode := true, enable := 0x200 } } (fun s => s.glkWake.hit) &&
      gives (.linkWakeDetect 9 (.pattern (BitVec.ofNat 32 (0x1FF * 2 ^ 7))) false)
        { inVigil id with glkWake := { GlkWake.reset with mode := true, enable := 0x200 } } (fun s => !s.glkWake.hit) &&
      gives (.linkWakeDetect 9 (.pattern 0xAA570008) false) { inVigil id with glkWake := { GlkWake.reset with device := 7, enable := 0x200 } }
        (fun s => !s.glkWake.hit) &&
      gives (.plaitWake 0x6B true) (inVigil fun p => { p with thermtrip := true }) (fun s => s.pwr.coreEn && !s.pwr.thermtrip)) = true := by
  decide +kernel

/-- After a thermal trip no boot restarts, and a cold reset does nothing before a wake. -/
theorem test_thermtrip_stays :
    (gives .thermtrip { at0 0 {} with pwr := { Pwr.reset with core := .off, coreEn := false, bootPulse := true } }
        (fun s => !s.pwr.bootPulse && s.pwr.vigil && match Sys2Proof.Machine.exec .failedBootRestart s with
          | .next u => u.pwr.core == .off && !u.pwr.coreEn
          | _ => false)) = true := by decide +kernel

/-- Generation 6 is always Flit mode; a width the link has not is not taken. -/
theorem test_boot_link :
    gives (.coldReset { boot0 with pcieGen := 6, pcieFlit := false }) { at0 0 {} with pwr := Pwr.reset }
      (fun s => s.dev.pciGen == 6 && s.dev.pciFlit) = true := by decide +kernel

/-- A boot that counts the third attempt out leaves the slot failed and takes the other. -/
theorem test_boot_attempts :
    gives (.coldReset { boot0 with slotOk := (true, true) })
      (fwm (fun f => (slot1 3 { f with state := 1, attempts := 3, activeSlot := true, slot0 := { f.slot0 with state := 2 } }).commit)
        { at0 0 {} with pwr := { Pwr.reset with stbyLost := false } })
      (fun s => !s.fw.activeSlot && s.fw.state == 2 && s.fw.slot1.state == 5) = true := by decide +kernel

theorem test_pwr_vset_throttled :
    gives (.pwrVsetWrite 0x02BC0384) { at0 0 {} with pwr := { Pwr.reset with core := .running, railW := { Pwr.reset.railW with vcmd := 640 } } }
      (fun s => (s.rail false).vcmd == 640) = true := by decide +kernel

theorem test_throttle_floor :
    (gives (.throttleStep .west) { calm (fun k => { k with now := { k.now with tj := 400 } }) with
        pwr := { Pwr.reset with core := .running, railW := { Pwr.reset.railW with vcmd := 605 } } } (fun s => (s.rail false).vcmd == 600) &&
      gives (.throttleStep .west) { calm (fun k => { k with now := { k.now with tj := -8 } }) with
        pwr := { Pwr.reset with core := .running, tOff := 0, tOn := 0, railW := { Pwr.reset.railW with vcmd := 740 } } }
        (fun s => (s.rail false).vcmd == 750)) = true := by decide +kernel

/-- A calibration under way: half the threshold passed once restarts it, a fourth time fails it. -/
theorem test_tj_restart :
    (gives (.tjSample 0 11) (calm fun k => { k with step := 3, known := true }) (fun s => (s.tile 0).cal.step == 1 && (s.tile 0).cal.restarts == 1 &&
        (s.tile 0).cal.ref.tj == 11) &&
      gives (.tjSample 0 10) (calm fun k => { k with step := 3, known := true }) (fun s => (s.tile 0).cal.step == 3) &&
      gives (.tjSample 0 11) (calm fun k => { k with step := 3, known := true, restarts := 3 })
        (fun s => (s.tile 0).cal.failReason == 8 && (s.tile 0).cal.step == 1 && (s.tile 0).cal.trigger == 6) &&
      gives (.tjSample 0 11) (calm fun k => { k with step := 3, known := true, restarts := 3, fails := 1 })
        (fun s => (s.tile 0).cal.cal == 3 && s.dev.irqStat == 0x20)) = true := by decide +kernel

theorem test_telemetry_torn :
    gives (.telemetryRead .west (some { vout := 748, vana := 1200, uv := true, torn := [3] })) (store [0, 3] (calm id))
      (fun s => (s.rail false).uvSeen && s.sec.store.map (·.torn) == [false, true]) = true := by decide +kernel

/-- A setpoint that moves too far makes the array stale with a wait for the rail. -/
theorem test_throttle_triggers :
    gives (.throttleStep .west) (let s := calm fun k => { k with cal := 0, known := true, ref := { k.ref with vc := 800 }, now := { k.now with tj := 380 } }
        { s with timer := 7 })
      (fun s => (s.tile 0).cal.trigger == 2 && (s.tile 0).cal.rail == some (740, 500007)) = true := by decide +kernel

theorem test_calibration_waits :
    (gives (.calibrationStart 0) { calm (fun k => { k with rail := some (740, 500000) }) with timer := 499999 } (fun s => (s.tile 0).cal.step == 0) &&
      gives (.calibrationStart 0) { calm (fun k => { k with rail := some (740, 500000) }) with timer := 500000 } (fun s => (s.tile 0).cal.step == 1) &&
      gives (.calibrationComplete 0 { betaRatio := 1048576, units := [], rest := goodUnit })
        (tile0 (fun T => { T with os := { T.os with swapPending := true } }) (calm fun k => { k with step := 6 }))
        (fun s => (s.tile 0).os.bank && !(s.tile 0).os.swapPending)) = true := by decide +kernel

theorem test_tally_dump_busy :
    let s := dumping 4096 (at0 0 {})
    (gives .tlyDumpNow { s with tly := { s.tly with dumping := true } } (fun u => u.tly.dropped == 1 && u.tly.ringDropped == 1 && u.tly.seq == 0) &&
      gives .tallyDump { s with tly := { s.tly with taken := 2 } } (fun u => u.tly.dumps == 0 && u.tly.taken == 2) &&
      gives .tallyDump s (fun u => u.tly.taken == 2 && u.tly.dumping && u.tly.dumps == 1)) = true := by decide +kernel

/-- 81 equal bits fail a block; a block that goes on from 80 of them fails at its first. -/
theorem test_health :
    (healthScan 824 81 (rawBits (List.replicate 11 0xFF)) HealthAt.start).isRight = true ∧
      (healthScan 824 81 (rawBits (List.replicate 10 0xFF)) HealthAt.start).isRight = false ∧
      gives (.entropyBlockComplete 0 (List.replicate 256 0xFF)) (celled .healthy id (at0 0 {}))
        (fun s => (s.cell 0).st == .isolated && s.hopW.rct == 1 && s.hopW.units == []) = true := by decide +kernel

/-- Draws that wait: a challenge served when its unit comes, dropped with result 7 when no hopper is left. -/
theorem test_draws :
    let s := { fed 1 (at0 0 {}) with draws := [.challenge] }
    (s.serveDraws.sec.nonceValid && s.serveDraws.hopW.units == [] && s.serveDraws.draws == [] &&
      ({ at0 0 {} with draws := [.challenge] } : State).serveDraws.sec.lastResult == 7 &&
      ({ fed 0 (at0 0 {}) with draws := [.challenge] } : State).serveDraws.draws == [.challenge]) = true := by decide +kernel

theorem test_entropy_behind :
    let s := { fed 3 (cmd 0x60 0x10005 [0x100]) with draws := [.challenge] }
    (s.readAhead 0 && gives (.entropyRead 0 none) s (fun u => (u.cmd 0).map (·.units) == some (some []) && u.hopW.units.length == 3) &&
      fin0 2 0 0 0 ({ cmd 0x60 0x10005 [0x100] with started := [{ cmd0 0x60 0x10005 [0x100] with units := some [] }] } : State).entropyLost) = true := by
  decide +kernel

/-- A request under a key slot whose entry fails its tag, at temperature 1. -/
theorem test_tks_torn :
    gives (.tksRequest .west) { tornKey (sampling (on 2 3) (at0 0 {})) with
        hbm := Mem.cells 0x100 (leBytes 4 0x3F800000) ++
          Mem.cells 0x4080 ([0, 0, 0, 0, 1, 0, 0, 0] ++ leBytes 8 0x100 ++ zeros 16 ++ leBytes 4 0x3F800000 ++ zeros 12 ++ leBytes 8 0x200) ++
          Mem.cells 0x8000 [3] }
      (fun s => s.tksW.lastStatus == 0x71 && s.tksW.head == 3) = true := by decide +kernel

/-- A disable while a request is in progress completes it first. -/
theorem test_tks_disable_busy :
    gives (.tksDisable .west 0) { sampling (on 2 3) (at0 0 {}) with hbm := logits }
      (fun s => !s.tksW.enable && s.tksW.head == 3 && s.hbmBytes 0x200 4 == [1, 0, 0, 0]) = true := by decide +kernel

/-- Link 0 keyed with keys and its entry in the store. -/
def keyedLink (g : Link → Link) (s : State) : State :=
  store [20] (dataLink (fun k => g { k with keys := some (List.replicate 32 1, List.replicate 32 2) }) s)

theorem test_link_torn :
    let s := keyedLink (fun k => { k with replayBuf := [frame 0 4] }) (at0 0 {})
    let t := { s with sec := { s.sec with store := s.sec.store.map fun (e : KeyEntry) => { e with torn := true } } }
    (t.hasKey 20 && !t.keyPasses 20 &&
      gives (.linkFrameTransmit 0) t (fun u => !u.hasKey 20 && u.sec.ksBad == 1 && (u.link 0).state == .holding && (u.link 0).keys == none &&
        (u.link 0).replayBuf.map (·.fsn) == [4] && u.out == []) &&
      gives (.linkGroupReceive 0 { frames := [], tag := [], fecOk := true }) t (fun u => !u.hasKey 20 && (u.link 0).state == .holding)) = true := by
  decide +kernel

/-- A held frame goes again only once its link is keyed; one that would need the sixteenth place of a group lets an idle frame close
it. -/
theorem test_link_resend_waits :
    (gives (.linkFrameTransmit 0) (trained (fun k => { k with resend := [frame 0 3], credits := fullCredit, owed := List.replicate 9 0 }) (at0 0 {}))
        (fun s => sent (fun f => f.kind == 1) s && (s.link 0).resend.map (·.fsn) == [3]) &&
      gives (.linkFrameTransmit 0) (dataLink (fun k => { k with resend := [{ frame 0 3 with last := false }], group := List.replicate 15 (frame 1 0) })
          (at0 0 {}))
        (fun s => sent (fun f => f.kind == 1 && f.last) s && (s.link 0).resend.map (·.fsn) == [3] && (s.link 0).group == [])) = true := by
  decide +kernel

/-- A tag that would pass, on which the two paths disagree. -/
theorem test_link_disagrees :
    gives (.linkGroupReceive 0 (group1 (frame 0 9) 0x1da48c1d5a38b3274fb4fe957ae4d198)) (upset [.tag] (dataLink id (at0 0 {})))
      (fun s => (s.link 0).rxFsn == 9 && (s.link 0).tagFail == 1 && s.alm.authRun == 1 && s.sec.upset == []) = true := by decide +kernel

/-- A key set-up that waits for the hopper. -/
theorem test_link_setup_waits :
    (gives (.linkKeySetupRetry 0) (fed 0 (trained (fun k => { k with met := true }) (at0 0 {}))) (fun s => s.draws == [.linkStart 0] && s.out == []) &&
      gives (.linkKeySetupMessage 0 (.step1 (List.replicate 3184 0) (List.replicate 3184 0) [] (List.replicate 32 0) (List.replicate 1568 0)))
        (upset [.signature] (trained (fun k => { k with met := true, setup := some setup0 }) (at0 0 {})))
        (fun s => (s.link 0).refuse == 2 && s.alm.authRun == 1)) = true := by decide +kernel

theorem test_link_training_signal :
    (gives (.linkSignalDetect 0) (linkIn .holding (at0 0 {})) (fun s => (s.link 0).state == .holding) &&
      gives (.linkDown 0) (linkIn .failed (at0 0 {})) (fun s => (s.link 0).state == .failed) &&
      gives (.linkTrainingComplete 0 0) (linkIn .holding (at0 0 {})) (fun s => (s.link 0).trained && (s.link 0).state == .holding)) = true := by
  decide +kernel

theorem test_tap_idcode_hypotheses : (tapIr 2 (at0 0 {})).tap.ir = 2 ∧ (List.replicate 32 false).length = 32 := by decide +kernel

theorem test_readback_hypotheses :
    let s : State := at0 0 {}
    let u := { s with weave := { s.weave with rbBusy := true, rbAddr := 0x1000, rbLen := 0x10000 } }
    (u.chiefRuns && !u.applying && u.weave.installed.isSome && !u.hbmAsleep 0x1000 0x10000 && u.bad == []) = true := by decide +kernel

/-! ## Where an instruction stops

Each witness names its opcode alone: its fields in use and its command are those of `forms`. -/

/-- The fields an opcode uses, and its command. -/
def useOf (op : BitVec 8) : Use := ((forms.find? fun e => e.1 == op).map (·.2.1)).getD { d := false }
def cmdOf (op : BitVec 8) : Nat → Nat → Fields → Instr := ((forms.find? fun e => e.1 == op).map (·.2.2)).getD .nop

/-- An instruction runs at the small state changed by g, on operands for which q holds, and answers a next state for which r holds. -/
abbrev At (op : BitVec 8) (f : Fields) (g : State → State) (q : Ctx → Bool) (r : State → Bool) : Prop :=
  Works op (useOf op) f (cmdOf op) (g (at0 op f)) q r

/-- It raises a fault of this cause and leaves the phrase at its pc. -/
def stopIs (cause : Nat) (s : State) : Bool := faultIs cause s && pcIs 0 s

/-- It raises the array fault with this cause of its own. -/
def arrIs (cause : Nat) (s : State) : Bool := stopIs 2 s && (s.tile 0).au.faultCause == cause

/-- It waits: no fault, the phrase at its pc. -/
def waitIs (s : State) : Bool := pcIs 0 s && !(s.tile 0).fault.valid

/-- The phrase in slot 0 of tile 0 changed. -/
def ph0 (h : Phrase → Phrase) : State → State := tile0 fun T => { T with slots := T.slots.set 0 (some (h phrase0)) }

/-- POLICY of the installed weave. -/
def policy0 (y : Policy) : State → State := weaveMod fun w => { w with policy := y }

theorem test_scalar_stops : At 0x0B { d := 3, a := 4, b := 5, imm := 15 } id any (stopIs 1) ∧
    At 0x0C { d := 3, a := 4, imm := 0x1F } id any (stopIs 1) ∧ At 0x0D { d := 3, imm := 10 } id any (stopIs 1) ∧
    At 0xA0 { d := 9, imm := 8 } id (fun x => !x.s.tly.cfg.dedicated) (stopIs 1) :=
  ⟨works (by decide), works (by decide), works (by decide), works (by decide)⟩

theorem test_branch_leaves_body : [(0x01 : BitVec 8), 0x02, 0x03, 0x04, 0x05].all (fun op =>
    let s := ph0 (fun h => { h with loops := [{ start := 1, stop := 1, remaining := 2 }] }) (at0 op {})
    runsOn op (useOf op) {} s (fun x => x.ph.loops.length == 1) && gives (cmdOf op 0 0 {}) s (stopIs 6)) = true := by decide

theorem test_loop_stops : At 0x06 { a := 4 } id any (stopIs 1) ∧ At 0x06 { a := 4, imm := 0x1001 } id any (stopIs 1) ∧
    At 0x06 { a := 4, imm := 2 } id any (stopIs 6) ∧
    At 0x06 { a := 4, imm := 1 } (ph0 fun h => { h with loops := List.replicate 4 { start := 0, stop := 1, remaining := 2 } }) any
      (stopIs 6) ∧
    At 0x06 { a := 4, imm := 1 } (ph0 fun h => { h with loops := [{ start := 0, stop := 0, remaining := 2 }] }) any (stopIs 6) :=
  ⟨works (by decide), works (by decide), works (by decide), works (by decide), works (by decide)⟩

theorem test_launch_stops : At 0x07 { a := 7, b := 3, imm := 1 } id any (pcIs 1) ∧
    At 0x07 { a := 5, b := 6, imm := 1 } id any (stopIs 7) ∧ At 0x07 { a := 7, b := 6, imm := 2 } id any (stopIs 7) ∧
    At 0x07 { a := 7, b := 8, imm := 1 } (ph0 (·.ws 8 65537)) any (stopIs 7) ∧
    At 0x07 { a := 7, b := 6, imm := 1 } (tile0 fun T => { T with wq := List.replicate 1024 item }) any waitIs :=
  ⟨works (by decide), works (by decide), works (by decide), works (by decide), works (by decide +kernel)⟩

theorem test_pend_stops : At 0x08 {} (arr0 (·.openTile 0 0 0)) (fun x => x.T.au.isOpen && x.T.au.owner == 0) (stopIs 6) ∧
    At 0x08 {} (tile0 fun T => { T with dmas := [dma8 false] }) (fun x => !x.T.au.isOpen && x.s.outstanding 0 0) waitIs :=
  ⟨works (by decide), works (by decide)⟩

/-- A form that its opcode's fields do not admit takes the illegal-instruction fault. -/
def illegal (op : BitVec 8) (f : Fields) : Bool :=
  let s := at0 op f
  ((s.issuable 0 0 op f).any fun x => bpHit x.T 0 x.ph.pc == none && !(useOf op).legal f) && gives (cmdOf op 0 0 f) s (stopIs 1)

theorem test_illegal_fields : (illegal 0x01 { d := 1 } && illegal 0x09 { a := 1 } && illegal 0x09 { b := 31 } && illegal 0x0B { c := 1 } &&
    illegal 0x0B { imm := 0x80000000 } && illegal 0x09 { pr := 1 } && illegal 0x0E { pn := 1 }) = true := by decide

theorem test_nop_illegal : (((at0 0 { d := 1 }).issuable 0 0 0 { d := 1 }).any fun x => bpHit x.T 0 x.ph.pc == none) = true ∧
    gives (.nop 0 0 { d := 1 }) (at0 0 { d := 1 }) (stopIs 1) = true ∧
    (((at0 0x1A {}).issuable 0 0 0x1A {}).any fun x => bpHit x.T 0 x.ph.pc == none && !assignedOp 0x1A) = true ∧
    gives (.nop 0 0 {}) (at0 0x1A {}) (stopIs 1) = true := by decide

theorem test_not_issued : (tile0 (fun T => { T with held := true }) (at0 0x09 { d := 3 })).issuable 0 0 0x09 { d := 3 } = none ∧
    gives (.smov 0 0 { d := 3 }) (tile0 (fun T => { T with held := true }) (at0 0x09 { d := 3 })) waitIs = true := by decide

theorem test_vst_nibbles : At 0x11 { d := 1, a := 6, imm := 0x30000000 } id
    (fun x => x.badLane 4 (x.rowLanes 4) == none && x.rowLanes 4 == [{ lane := 0, addr := 64, nib := 0 }, { lane := 1, addr := 64, nib := 1 }])
    (sramIs 64 [0x99, 0]) := works (by decide)

theorem test_dma_stops : At 0x17 { a := 6, imm := 3 } (tile0 fun T => { T with dmas := [dma8 false] }) any waitIs ∧
    At 0x17 { a := 7, imm := 3 } id (fun x => !x.sramOk 7 32 32) (stopIs 3) ∧
    At 0x17 { a := 6, imm := 3 } (sram64 (desc 2 1)) (fun x => x.sramOk 64 32 32) (stopIs 3) ∧
    At 0x17 { a := 6, imm := 3 } (sram64 ((desc 0 1).set 16 130)) any (stopIs 3) ∧
    At 0x17 { a := 6, imm := 3 } (sram64 ((desc 0 1).set 18 0x18)) any (stopIs 3) ∧
    At 0x17 { a := 6, imm := 3 } (sram64 (desc 0 1)) (fun x => x.s.regions == []) (stopIs 4) :=
  ⟨works (by decide), works (by decide), works (by decide), works (by decide), works (by decide), works (by decide)⟩

theorem test_atom_stops : At 0x92 { a := 8, b := 10, c := 1, imm := 3 } id any (stopIs 1) ∧
    At 0x92 { a := 8, b := 10, c := 31, imm := 4 } id any (stopIs 1) ∧
    At 0x92 { a := 8, b := 10, c := 1 } (ph0 (·.ws 8 0x8100000000002000)) any (stopIs 3) ∧
    At 0x92 { a := 8, b := 10, c := 1 } (fun s => plans (ph0 (·.ws 8 0x2001) s)) any (stopIs 4) ∧
    At 0x92 { a := 8, b := 10, c := 1 } (fun s => plans (ph0 (·.ws 8 0x1000) s)) (fun x => x.atomFault 4 0 == some 4) (stopIs 4) :=
  ⟨works (by decide), works (by decide), works (by decide), works (by decide), works (by decide)⟩

theorem test_array_open_stops : At 0x20 { imm := 6 } id (fun x => !x.ganged) (stopIs 1) ∧
    At 0x20 {} (arr0 (·.openTile 1 0 0)) (fun x => x.T.au.isOpen && x.T.au.owner == 1) waitIs ∧
    At 0x20 { imm := 7 } (gang 1 2) (fun x => x.ganged && gangPos x.cr x.member == (0, 1) && x.T.au.opens == []) waitIs ∧
    At 0x21 { a := 6, imm := 6 } id any (stopIs 1) ∧
    At 0x21 { a := 6, imm := 4 } (arr0 fun u => { u with loading := some (ones 0) }) any waitIs ∧
    At 0x21 { a := 7, imm := 4 } id (fun x => !x.sramOk 7 (heldBytes 4) 64) (stopIs 3) ∧
    At 0x21 { a := 6, b := 5, imm := 2 } id (fun x => x.sramOk 64 (heldBytes 2) 64) (stopIs 3) :=
  ⟨works (by decide), works (by decide), works (by decide), works (by decide), works (by decide), works (by decide), works (by decide)⟩

/-- Tile 0's output tile open in mode m, with a held block of that mode. -/
def opened (m : Nat) : State → State := arr0 fun u => { u.openTile 0 m 0 with held0 := ones m }

theorem test_amac_stops : At 0x22 { imm := 2 } (fun s => gang 1 2 (opened 0 s)) (fun x => gangPos x.cr x.member == (0, 1)) waitIs ∧
    At 0x22 { a := 6, b := 4, imm := 2 } (opened 2) (fun x => blockMode x.T.au.mode) (stopIs 3) ∧
    At 0x22 { a := 5, imm := 2 } (opened 0) (fun x => (x.amacBad 0 1).isSome) (stopIs 3) ∧
    At 0x22 { a := 6, imm := 0x3F04 } id any (stopIs 1) ∧
    At 0x22 { a := 6, imm := 2 } (arr0 (·.openTile 1 0 0)) (fun x => x.T.au.owner == 1) waitIs ∧
    At 0x22 { a := 6, imm := 1 } (fun s => arr0 (fun u => { u with loading := some (ones 0) }) (opened 0 s)) any waitIs ∧
    At 0x22 { a := 6, imm := 2 } (arr0 (·.openTile 0 0 0)) (fun x => (x.T.au.held x.T.au.active).mode != some 0) (arrIs 5) :=
  ⟨works (by decide), works (by decide), works (by decide), works (by decide), works (by decide), works (by decide), works (by decide)⟩

/-- Clause 0 over tiles 0 and 1, in one gang of two rows. -/
def gangRows (s : State) : State :=
  weaveMod (fun w => { w with clauses := [{ id := 0, gangA := 2, gangB := 1, members := [0, 1] }] }) (gang 2 1 s)

theorem test_adrn_stops : At 0x23 { a := 6, imm := 3 } id (fun x => gangPos x.cr x.member == (0, 0)) (stopIs 1) ∧
    At 0x23 { a := 6 } (arr0 (·.openTile 1 0 0)) (fun x => x.T.au.owner == 1) waitIs ∧
    At 0x23 { a := 6 } (fun s => gangRows (opened 0 s)) (fun x => gangPos x.cr x.member == (0, 0) && x.cr.gangA == 2 && x.T.au.sums == [])
      waitIs ∧
    At 0x23 { a := 7 } (opened 0) (fun x => !x.sramOk (x.drainRow 0) 256 4) (fun s => stopIs 3 s && (s.tile 0).fault.addr == 7) ∧
    At 0x23 { a := 6, imm := 0x100 } (opened 0) any (arrIs 4) ∧ At 0x23 { a := 6 } (opened 2) any (arrIs 4) :=
  ⟨works (by decide), works (by decide), works (by decide), works (by decide), works (by decide), works (by decide)⟩

/-- Clause 0 granted key slot 0; the phrase draws in lane mode, as does its own run in progress, on a tile with anchors. -/
def laneRun (s : State) : State :=
  let r : RCtx := { slot := some 0, lane := true, stream := 0, pos := List.replicate 64 0 }
  keyed (osi (fun o => { o with hasAnchors := true, run := some { run5 0 true with slot := 0, ctx := r } }) (ph0 (fun h => { h with rctx := r }) s))

theorem test_lane_draw_waits :
    At 0x30 { d := 8, imm := 4 } laneRun (fun x => x.rctxKey.isSome && x.laneDrawWaits x.ph.rctx.lane) waitIs ∧
    At 0x3A { d := 8, imm := 0x120 } laneRun any waitIs ∧ At 0x3B { b := 6, c := 6, imm := 4 } laneRun any waitIs ∧
    At 0x70 { d := 8, imm := 0x10 } laneRun (fun x => x.laneDrawWaits true && (x.s.pgKey x.c 0).isSome) waitIs ∧
    At 0x72 { d := 2, imm := 0x10 } laneRun (fun x => x.laneDrawWaits true && (x.s.pgKey x.c 0).isSome) waitIs :=
  ⟨works (by decide +kernel), works (by decide +kernel), works (by decide +kernel), works (by decide +kernel), works (by decide +kernel)⟩

theorem test_arithmetic_illegal : At 0x30 { d := 8, imm := 3 } id any (stopIs 1) ∧ At 0x34 { d := 8, imm := 2 } id any (stopIs 1) ∧
    At 0x35 { d := 8, imm := 2 } id any (stopIs 1) ∧ At 0x31 { d := 8, imm := 6 } id any (stopIs 1) ∧
    At 0x32 { d := 8, imm := 8 } id any (stopIs 1) ∧ At 0x33 { d := 8, imm := 10 } id any (stopIs 1) :=
  ⟨works (by decide), works (by decide), works (by decide), works (by decide), works (by decide), works (by decide)⟩

/-- Lanes 0 and 1 of v4 and v5. -/
def pair (a b : List (BitVec 32)) : State → State := ph0 fun h => (h.wv 4 (a ++ List.replicate 62 0)).wv 5 (b ++ List.replicate 62 0)

theorem test_fp_order :
    At 0x36 { d := 8, a := 4, b := 5 } (pair [0, 0xFF800000] [0x80000000, 0x3F800000]) any (vIs 8 [0x80000000, 0xFF800000, 0]) ∧
    At 0x37 { d := 8, a := 4, b := 5, imm := 1 } (pair [0xBF803F80, 0] [0x3F804000, 0xFF80]) any (vIs 8 [0x3F804000, 0, 0]) ∧
    At 0x38 { d := 1, a := 4, b := 5 } (pair [0x80000000, 0x3F800000] [0, 0x40000000]) any (pIs 1 1) ∧
    At 0x38 { d := 1, a := 4, b := 5, imm := 0x50 } (pair [0x80000000, 0x3F800000] [0, 0x40000000]) any (pIs 1 1) :=
  ⟨works (by decide), works (by decide), works (by decide), works (by decide)⟩

theorem test_lane_illegal : ([(0x36, { imm := 3 }), (0x37, { imm := 3 }), (0x38, { imm := 3 }), (0x38, { imm := 0x60 }), (0x38, { d := 8 }),
    (0x39, { c := 8 }), (0x3F, { imm := 8 }), (0x3F, { imm := 4 }), (0x3F, { a := 1, imm := 2 }), (0x3F, { imm := 0x102 }),
    (0x40, { imm := 0x60 }), (0x41, { imm := 6 }), (0x41, { d := 8, imm := 3 }), (0x41, { a := 8, imm := 5 }), (0x41, { b := 8 }),
    (0x41, { b := 1, imm := 4 }), (0x3A, {}), (0x3A, { imm := 0x33 }), (0x3E, { imm := 2 }), (0x3E, { imm := 0x70 }), (0x3D, { imm := 3 }),
    (0x3D, { imm := 0x30 }), (0x3D, { c := 1, imm := 2 })] : List (BitVec 8 × Fields)).all (fun e =>
      runsOn e.1 (useOf e.1) e.2 (at0 e.1 e.2) any && gives (cmdOf e.1 0 0 e.2) (at0 e.1 e.2) (stopIs 1)) = true := by decide

theorem test_conversion_stops : At 0x3A { d := 8, imm := 0x120 } id (fun x => x.rctxKey == none && x.ph.rctx.slot == none) (stopIs 10) ∧
    At 0x3B { b := 6, c := 6, imm := 4 } (ph0 fun h => { h with rctx := { h.rctx with slot := some 3 } })
      (fun x => x.rctxKey == none && x.ph.rctx.slot == some 3) (stopIs 10) ∧
    At 0x3B { b := 5, c := 6 } id (fun x => !x.sramOk (x.ph.rs 5).toNat 64 1) (stopIs 3) ∧
    At 0x3B { b := 6, c := 5 } id (fun x => x.sramOk 64 64 1) (stopIs 3) ∧
    At 0x3C { a := 5, b := 6 } id (fun x => !x.sramOk (x.ph.rs 5).toNat 64 1) (stopIs 3) ∧
    At 0x3C { a := 6, b := 5 } id (fun x => x.sramOk 64 64 1) (stopIs 3) :=
  ⟨works (by decide), works (by decide), works (by decide), works (by decide), works (by decide), works (by decide)⟩

theorem test_vred_stops : At 0x3D { a := 31, b := 8, imm := 0x102 } (ph0 (·.ws 8 65)) any (stopIs 14) ∧
    At 0x3D { a := 6, b := 8, imm := 2 } (ph0 (·.ws 8 16777217)) any (stopIs 14) ∧
    At 0x3D { a := 7, b := 4, imm := 2 } id (fun x => !x.sramOk 7 20 4) (stopIs 3) :=
  ⟨works (by decide), works (by decide), works (by decide)⟩

/-- ((1 + 2) + 3) + nothing; a bf16 sum; -0 below +0; the first NaN; no element. -/
theorem test_fp_reductions : (reduceRow 0 0 [0x3F800000, 0x40000000, 0x40400000]).1 = 0x40C00000 ∧
    (reduceRow 1 0 [0x3F80, 0xFFFF3F80]).1 = 0x40000000 ∧ (reduceRow 0 1 [0x80000000, 0, 0]).1 = 0 ∧
    (reduceRow 0 1 [0x80000000, 0, 0]).2.1 = 1 ∧ (reduceRow 0 2 [0, 0x7F800001, 0xFF800000, 0x7FC00000]).1 = 0x7FC00000 ∧
    (reduceRow 0 2 [0, 0x7F800001, 0xFF800000, 0x7FC00000]).2.1 = 1 ∧ (reduceRow 0 0 []).1 = 0x80000000 ∧
    (reduceRow 1 1 []).1 = 0xFF800000 := by decide +kernel

/-- Tile 0's calibration state changed. -/
def cal0 (k : BitVec 2) (s : State) : State := tile0 (fun T => { T with cal := { T.cal with cal := k } }) (osi id s)

theorem test_osel_stops : At 0x50 {} (osi fun o => { o with hasAnchors := true }) (fun x => x.rctxKey == none && x.s.policy.det != 1)
      (stopIs 10) ∧
    At 0x50 {} (fun s => ph0 (fun h => { h with rctx := { h.rctx with slot := some 3 } }) (osi (fun o => { o with hasAnchors := true }) s))
      (fun x => x.rctxKey == none && x.ph.rctx.slot == some 3) (stopIs 10) ∧
    At 0x50 {} (cal0 1) any waitIs ∧ At 0x50 {} (cal0 2) any waitIs ∧ At 0x50 {} (cal0 3) any (stopIs 8) ∧
    At 0x50 { imm := 2 } (osi id) (fun x => x.T.os.strandCount == 2) (stopIs 8) :=
  ⟨works (by decide), works (by decide), works (by decide), works (by decide), works (by decide), works (by decide)⟩

theorem test_orun_stops : At 0x51 { a := 4, imm := 3 } id any (stopIs 1) ∧ At 0x51 { a := 4, imm := 1 } (osi id) any (stopIs 8) ∧
    At 0x51 { a := 4, imm := 0x21 } (fun s => policy0 { maxLoose := 1 } (osi id s)) any (stopIs 8) ∧
    At 0x51 { a := 4, imm := 2 } (osi id) (fun x => x.s.policy.freeRun == 0) (stopIs 8) ∧
    At 0x51 { a := 4, imm := 2 } (fun s => policy0 { freeRun := 1 } (cal0 2 s)) (fun x => x.s.policy.staleCal != 1) waitIs ∧
    At 0x51 { a := 4, imm := 2 } (fun s => policy0 { freeRun := 1, staleCal := 1 } (cal0 3 s)) any
      (fun s => pcIs 1 s && (s.tile 0).os.run.map (fun r => (r.kind, r.slot)) == some (2, 0)) :=
  ⟨works (by decide), works (by decide), works (by decide), works (by decide), works (by decide), works (by decide +kernel)⟩

/-- The phrase's own run is in progress. -/
def ownRun (s : State) : State := osi (fun o => { o with run := some { run5 0 true with slot := 0 } }) s

theorem test_array_access_waits : At 0x52 { a := 6 } ownRun (·.ownRun) waitIs ∧ At 0x53 { a := 6, imm := 1 } ownRun any waitIs ∧
    At 0x56 { a := 6 } ownRun any waitIs ∧ At 0x55 {} ownRun (·.ownRun) waitIs ∧
    At 0x54 { a := 6 } (osi fun o => { o with loading := some [] }) any waitIs ∧
    At 0x55 {} (osi fun o => { o with swapPending := true }) any waitIs :=
  ⟨works (by decide), works (by decide), works (by decide), works (by decide), works (by decide), works (by decide)⟩

theorem test_array_access_faults : At 0x53 { a := 6, imm := 1 } id (fun x => !x.T.os.present) (stopIs 8) ∧
    At 0x53 { a := 6, b := 8, imm := 1 } (fun s => ph0 (·.ws 8 512) (osi id s)) (fun x => x.T.os.present) (stopIs 8) ∧
    At 0x56 { a := 6 } id (fun x => !x.T.os.present) (stopIs 8) ∧ At 0x55 {} id (fun x => !x.T.os.present) (stopIs 8) ∧
    At 0x61 { a := 6 } id (fun x => !x.T.os.hasAnchors) (stopIs 9) :=
  ⟨works (by decide), works (by decide), works (by decide), works (by decide), works (by decide)⟩

theorem test_array_access_memory : At 0x52 { a := 5 } (osi id) any (stopIs 3) ∧ At 0x53 { a := 7, imm := 1 } (osi id) any (stopIs 3) ∧
    At 0x56 { a := 7 } (osi id) any (stopIs 3) ∧ At 0x61 { a := 5 } (osi fun o => { o with hasAnchors := true }) any (stopIs 3) ∧
    At 0x54 { a := 5 } (osi id) any (stopIs 3) ∧ At 0x57 { a := 5 } (osi id) any (stopIs 3) ∧
    At 0x60 { a := 7 } (osi fun o => { o with hasAnchors := true }) any (stopIs 3) :=
  ⟨works (by decide), works (by decide), works (by decide), works (by decide), works (by decide), works (by decide), works (by decide)⟩

theorem test_rdrop_stops : At 0x72 { d := 8 } keyed any (stopIs 1) ∧
    At 0x72 { d := 2, imm := 0x10 } (fun s => policy0 { det := 1 } (keyed s)) (fun x => x.s.policy.det == 1) (stopIs 10) :=
  ⟨works (by decide), works (by decide)⟩

theorem test_stop_waits : At 0x82 { a := 6, imm := 3 } (tile0 fun T => { T with arr := T.arr.set 3 [0] }) any (stopIs 11) ∧
    At 0x80 { imm := 3 } (tile0 fun T => { T with dmas := [dma8 false] }) (fun x => x.s.outstanding 0 0) waitIs :=
  ⟨works (by decide), works (by decide)⟩

theorem test_fsend_stops : At 0x90 { a := 31, b := 6, imm := 0x405 } id any (stopIs 1) ∧
    At 0x90 { a := 2, b := 6, imm := 5 } id (fun x => x.s.foldRec 5 == none) (stopIs 12) ∧
    At 0x90 { a := 2, b := 6, imm := 0x405 } (folded 0) any (stopIs 12) ∧
    At 0x90 { a := 2, b := 8, imm := 5 } (fun s => folded 0 (ph0 (·.ws 8 0x100000000) s)) any (stopIs 12) ∧
    At 0x90 { a := 2, b := 6, imm := 5 } (fun s => { folded 2 s with folds := [{ foldAt [] [] [] with
      nodes := [{ FoldNode.empty with held := List.replicate 64 (fgroup 64 0) }, FoldNode.empty] }] })
      (fun x => x.s.foldShare 0 == 64 && (foldRec0 2).twoPass) waitIs :=
  ⟨works (by decide), works (by decide), works (by decide), works (by decide), works (by decide +kernel)⟩

/-- 1.5 has exponent 0 and is held as its pattern; scaled by 2^0 it rounds to 2. -/
theorem test_fsend_float : At 0x90 { a := 4, b := 6, imm := 5 } (fun s => folded 2 (pair [0x3FC00000, 0x7FC00000] [] s)) any
      (fun s => pcIs 1 s && ((s.foldSt (foldRec0 2)).nodes.getD 0 FoldNode.empty).own1.map (fun e => (e.g.vals.take 3, e.g.nan)) ==
        [([0, -150, -150], 2)] && ((s.foldSt (foldRec0 2)).nodes.getD 0 FoldNode.empty).held.map (fun e => e.g.vals.take 1) == [[0x3FC00000]]) ∧
    At 0x90 { a := 4, b := 6, imm := 5 } (fun s => folded 4 (pair [0x3FC00000, 0xFF800000] [] s)) any
      (fun s => pcIs 1 s && ((s.foldSt (foldRec0 4)).nodes.getD 0 FoldNode.empty).own2.map (fun e => (e.g.vals.take 2, e.g.ninf)) ==
        [([2, 0], 2)]) :=
  ⟨works (by decide +kernel), works (by decide +kernel)⟩

theorem test_frecv_stops : At 0x91 { d := 8, b := 6, imm := 5 } id (fun x => x.s.foldRec 5 == none) (stopIs 12) ∧
    At 0x91 { d := 9, b := 6, imm := 5 } (folded 1) any (stopIs 1) ∧
    At 0x91 { d := 8, b := 6, imm := 5 } (fun s => { folded 0 s with folds := [{ foldAt [] [] [] with mismatch := true }] }) any
      (stopIs 12) ∧
    At 0x91 { d := 8, b := 6, imm := 5 } (folded 0) any waitIs ∧
    At 0x91 { d := 8, b := 6, imm := 5 } (fun s => { folded 1 s with folds := [{ foldAt [] [] [] with results := [groupOf 64 (-2)] }] })
      any (fun s => pcIs 1 s && vIs 8 [0xFFFFFFFE, 0xFFFFFFFE, 0] s && vIs 9 [0xFFFFFFFF, 0xFFFFFFFF, 0] s) :=
  ⟨works (by decide), works (by decide), works (by decide), works (by decide), works (by decide +kernel)⟩

theorem test_breakpoint :
    let s := tile0 (fun T => { T with dbg := { T.dbg with bps := [{ enable := true, anyPhrase := false, phrase := 0, pc := 0 }] } })
      (at0 0x09 { d := 3, imm := 7 })
    ((s.issuable 0 0 0x09 { d := 3, imm := 7 }).any fun x => bpHit x.T 0 x.ph.pc == some 0) = true ∧
    gives (.smov 0 0 { d := 3, imm := 7 }) s (fun s => waitIs s && (s.tile 0).dbg.held && (s.tile 0).dbg.reason == 2 &&
      (s.tile 0).dbg.phrase == 0 && (s.tile 0).dbg.bp == 0 && (s.tile 0).dbg.pc == 0) = true := by decide

/-! ## Ill-formed commands -/

/-- One command for each check of WellFormed that fails it. -/
def illFormed : List Instr :=
  [.registerWrite 0x4000000 (.bar0 4) 0, .commandFetch 16 (.ok (List.replicate 64 0)), .commandFetch 0 (.ok []),
   .submissionDoorbell 0x80 0, .completionDoorbell 0x80 0, .queueEnable 16 0, .queueDisable 16 0, .bar2Write 0xFFFFFFFFFF [0, 0],
   .phraseStart 384, .loadBalanceTake 384, .clauseRunComplete 64, .dmaTransferComplete 384 0 0, .dmaTransferComplete 0 64 0,
   .dmaTransferComplete 0 0 16, .heldLoadComplete 384, .gangCombine 384, .strandPhaseComplete 384, .phaseStopRelease 384,
   .freeRunLatch 384 0 [], .freeRunLatch 0 512 [], .freeRunLatch 0 0 [512], .obankLoadComplete 384, .stopGenerationComplete 64 0,
   .stopGenerationComplete 0 16, .foldGroupCombine 1024 0 1, .foldGroupCombine 0 0 3, .foldExponentBroadcast 1024,
   .hbmAccess 0x9000000000 (.read 1) .clean, .hbmRefresh 12 { temp := 0, scrub := 0 },
   .temperatureOutOfRange { sensor := .tile 384, temp := 0 }]

/-- The same for the commands of the analogue parts, the links and the board. -/
def illFormed' : List Instr :=
  [.tjSample 384 0, .calibrationStart 384, .calibrationComplete 384 { betaRatio := 0, units := [], rest := goodUnit },
   .calibrationComplete 0 { betaRatio := 0, units := List.replicate 513 goodUnit, rest := goodUnit }, .spotCheckStart 384,
   .spotCheckComplete 384 0, .calCmdStart 384, .calCmdSpot 384, .entropyBlockComplete 32 (List.replicate 256 0),
   .entropyBlockComplete 0 [], .healthTestFail 32 .rct, .cellRetest 32, .startupTestComplete 32 (List.replicate 128 0),
   .startupTestComplete 0 [], .rawCaptureComplete .west [], .remoteAccess 32 (msg8 0), .linkFrameTransmit 32,
   .linkGroupReceive 32 { frames := [], tag := [], fecOk := true }, .linkNak 32 0, .linkTransit 32, .linkTrainingComplete 32 0,
   .linkHello 32 { devId := 0, role := 0, protect := false, keyId := List.replicate 32 0 },
   .linkHello 0 { devId := 0, role := 0, protect := false, keyId := [] }, .linkKeySetupMessage 0 (.step2 [] []),
   .linkKeySetupMessage 0 (.step1 [] [] [] [] []), .linkKeySetupRetry 32, .glkCmdRekey 32, .glkCmdRetrain 32, .glkCmdWake 32,
   .wakePatternTimeout 32, .linkDown 32, .linkHoldExpire 32, .linkSwitchOff 32, .linkWakeDetect 32 (.mark 0) false,
   .fwForwardReceive 32 [] true, .fwForwardAbandon 4, .dbgCtlHold 384 0, .dbgCtlStep 384 0, .tileTallyClear 384, .linkSignalDetect 32]

/-- The constructors of instructions, each a function of tile, phrase slot and fields. -/
def instrs : List (Nat → Nat → Fields → Instr) :=
  [.nop, .br, .brz, .brnz, .brany, .brall, .loop, .plaunch, .pend, .smov, .smovh, .salu, .salui, .srd, .vflags, .utrap, .vld, .vst,
   .vldx, .vstx, .sld, .sst, .sldw, .dma, .dmaw, .pref, .aopen, .aldh, .amac, .adrn, .vadd, .vsub, .vmul, .vfma, .vdiv, .vsqrt, .vmin,
   .vmax, .vcmp, .vsel, .vcvt, .vbx, .vubx, .vred, .vtrn, .vmov, .vint, .vpred, .vlane, .vxs, .osel, .orun, .ord, .owf, .obank,
   .oswap, .obias, .oss, .nld, .nrd, .nwr, .rdraw, .rctx, .rdrop, .arrive, .wait, .stopn, .fsend, .frecv, .atom, .trd, .tmark, .hold]

theorem test_ill_formed : (illFormed ++ illFormed').all (fun i => !i.wf) = true := by decide +kernel

theorem test_ill_formed_instrs : instrs.all (fun c => !(c 384 0 {}).wf && !(c 0 64 {}).wf && (c 383 63 {}).wf) = true := by decide +kernel

theorem test_well_formed :
    ([.registerWrite 0x3FFFFFF (.bar0 4) 0, .submissionDoorbell 0x78 0, .completionDoorbell 0x178 0, .commandFetch 15 (.fail 0), .bar2Write 0xFFFFFFFFFF [0], .phraseStart 383, .clauseRunComplete 63,
      .foldGroupCombine 1023 0 2, .hbmRefresh 11 { temp := 0, scrub := 0 }, .cellRetest 31, .linkDown 31, .fwForwardAbandon 3] : List Instr).all Instr.wf = true := by
  decide +kernel

end Sys2Proof.Tests
end

section
/-! O57: a register that the ROM recovery mode does not serve reads 0, also over the plait bus (R518, R565). -/
namespace Sys2Proof.Machine

/-- R565: in recovery mode only the recovery registers respond; every other word of BAR0 reads 0. -/
theorem bar0Word_of_recovery {s : State} {o : Nat} (hrec : s.dev.recovery = true) (ho : recoveryReg o = false) :
    s.bar0Word o = 0 := by
  simp [State.bar0Word, hrec, ho]

theorem bar0Read_of_recovery {s : State} {off : Nat} (wide : Bool) (hrec : s.dev.recovery = true)
    (ho : recoveryReg (off / 8 * 8) = false) (hawake : s.halfClosed true = false) : s.bar0Read off wide = (0, s) := by
  simp [State.bar0Read, hawake, bar0Word_of_recovery hrec ho]

/-- A part in the ROM recovery mode, its plait bus at rest, with bit 0 of DEV_IRQ_MASK at 1. -/
def maskedInRecovery : State :=
  { State.reset with
    pwr := { Pwr.reset with core := .running }
    dev := { Dev.reset with recovery := true, irqMask := 1 } }

/-- A plait-bus read of the 32-bit register at 0x20, DEV_IRQ_MASK, from the device at 0x68 (R516, R517). -/
def maskReadBytes : List Byte := [0xD1, 0, 0, 0, 0x20, 0, crc8 [0xD1, 0, 0, 0, 0x20, 0]]

theorem plaitIdle_maskedInRecovery : PlaitIdle maskedInRecovery.plait := ⟨rfl, rfl, rfl, rfl⟩

/-- The check byte is the CRC of the bytes before it, and DEV_IRQ_MASK's offset suits a 32-bit access (R517). -/
theorem maskReadBytes_wellFormed : plaitWrong maskReadBytes = false := by
  simp [plaitWrong, maskReadBytes, byteAt, bitAt, slice, beNat, leNat]

/-- The transaction is whole, a read, addressed to this part, and the part serves it. -/
theorem maskReadBytes_served :
    plaitDue (byteBits maskReadBytes) = true ∧ byteAt maskReadBytes 0 / 2 = maskedInRecovery.plaitAddr ∧
      maskedInRecovery.plaitServes = true ∧ (maskReadBytes.getD 0 0).getLsbD 0 = true :=
  ⟨by decide, by decide, rfl, rfl⟩

theorem maskReadBytes_fields : beNat (slice maskReadBytes 1 4) = 0x20 ∧ byteAt maskReadBytes 5 = 0 := by decide

/-- Refutes O57: its clause on plait-bus reads has DEV_IRQ_MASK, read as a 32-bit register, answer the mask also in the ROM
recovery mode, where the bus is served (R520, R565) but only DEV_GRADE, DEV_STAT, PCI_LINK and the FW block respond. The same
clause asks for what BAR0 reads there, which is 0, so the two differ wherever the mask is not 0: the clause lacks the
hypothesis that the part is not in recovery, which its write of the same register has. -/
theorem not_management : ¬ Obligations.Management := by
  unfold Obligations.Management
  rintro ⟨-, hbus, -⟩
  obtain ⟨hdue, haddr, hserves, hread⟩ := maskReadBytes_served
  obtain ⟨hoff, hctl⟩ := maskReadBytes_fields
  obtain ⟨hwhole, -, -⟩ := hbus maskedInRecovery rfl rfl
  obtain ⟨-, hmine⟩ := hwhole maskReadBytes plaitIdle_maskedInRecovery rfl hdue
  obtain ⟨-, hreads, -⟩ := hmine haddr hserves
  obtain ⟨_, l, p, -, -, -, -, hmask, hbar0⟩ := hreads maskReadBytes_wellFormed hread rfl
  have hone : beNat l = 1 := hmask hoff hctl
  have hzero : beNat l = 0 := by
    rw [hoff] at hbar0
    rw [hbar0 (by decide), bar0Read_of_recovery _ rfl rfl rfl, Nat.zero_mod]
  exact absurd (hone.symm.trans hzero) (by decide)

end Sys2Proof.Machine
end

section
/-! O37: what a SAVE_CTX and a RESTORE_CTX leave (R34, R178, R179, R410, R413, R416, R417, R420, R479). -/
namespace Sys2Proof.Machine

/-! ## Commands that finish -/

/-- The record of a number, after a change of the records of that number that keeps it. -/
theorem find?_map_of_key {α : Type} {key : α → Nat} {k : Nat} {f : α → α} (hf : ∀ a, key a = k → key (f a) = k) (l : List α) :
    (l.map fun a => if key a = k then f a else a).find? (fun a => key a == k) = (l.find? fun a => key a == k).map f := by
  have hsame : (fun a => key a == k) ∘ (fun a => if key a = k then f a else a) = fun a => key a == k := by
    funext a
    by_cases h : key a = k <;> simp [h, hf]
  rw [List.find?_map, hsame]
  cases ha : l.find? fun a => key a == k with
  | none => rfl
  | some a =>
    have hkey : key a = k := by simpa using List.find?_some ha
    simp [hkey]

theorem cmd_modCmd {f : Started → Started} (hf : ∀ c, (f c).id = c.id) (s : State) (id : Nat) :
    (s.modCmd id f).cmd id = (s.cmd id).map f :=
  find?_map_of_key (fun c hc => (hf c).trans hc) s.started

theorem clauseSt_modClause {f : ClauseSt → ClauseSt} {c : Nat} (hf : ∀ x, (f x).id = c) (s : State) :
    (s.modClause c f).clauseSt c = (s.clauseSt c).map f :=
  find?_map_of_key (fun x _ => hf x) s.clauses

/-- A command that may be carried on has finished once it is finished, after any step that leaves the started commands. -/
theorem finish_finished {s u : State} {id op : Nat} {c : Started} (h : Takes s id op c) (hu : u.started = s.started)
    (st d0 d1 d2 : Nat) : Finished (u.finish id st d0 d1 d2) id st d0 d1 d2 := by
  obtain ⟨⟨hcmd, -, hfin⟩, -, -⟩ := h
  have hu : u.cmd id = some c := by rw [State.cmd, hu]; exact hcmd
  have hfinish := cmd_modCmd (f := fun c => if c.fin.isSome then c else
    { c with fin := some { status := st, detail0 := BitVec.ofNat 64 d0, detail1 := BitVec.ofNat 64 d1,
                           detail2 := BitVec.ofNat 64 d2 } }) (fun c => by split <;> rfl) u id
  rw [hu] at hfinish
  exact ⟨_, hfinish, by simp [hfin]⟩

/-! ## Updates confined to some tiles -/

/-- From s to u only tiles of the list m have changed, and there are as many. -/
structure TilesOnly (m : List Nat) (s u : State) : Prop where
  frame : u = { s with tiles := u.tiles }
  length : u.tiles.length = s.tiles.length
  others : ∀ t, t ∉ m → u.tile t = s.tile t

theorem TilesOnly.refl (m : List Nat) (s : State) : TilesOnly m s s := ⟨rfl, rfl, fun _ _ => rfl⟩

theorem TilesOnly.trans {m : List Nat} {s u v : State} (h : TilesOnly m s u) (h' : TilesOnly m u v) : TilesOnly m s v :=
  ⟨by rw [h'.frame, h.frame], h'.length.trans h.length, fun t ht => (h'.others t ht).trans (h.others t ht)⟩

section
variable {m : List Nat} {s u : State} (h : TilesOnly m s u)
include h

theorem TilesOnly.hbm : u.hbm = s.hbm := by rw [h.frame]
theorem TilesOnly.bad : u.bad = s.bad := by rw [h.frame]
theorem TilesOnly.started : u.started = s.started := by rw [h.frame]
theorem TilesOnly.clauses : u.clauses = s.clauses := by rw [h.frame]

theorem TilesOnly.lt_iff {t : Nat} : t < u.tiles.length ↔ t < s.tiles.length := by rw [h.length]

theorem TilesOnly.members (c : Nat) : u.members c = s.members c := by
  rw [h.frame]
  rfl

end

theorem tilesOnly_modTile {m : List Nat} {t : Nat} (ht : t ∈ m) (s : State) (f : Tile → Tile) : TilesOnly m s (s.modTile t f) :=
  ⟨rfl, modTile_tiles_length s t f, fun u hu => tile_modTile_ne s t u f fun h => hu (h ▸ ht)⟩

theorem tilesOnly_foldl {α : Type} {m : List Nat} {g : State → α → State} {l : List α}
    (hg : ∀ u, ∀ a ∈ l, TilesOnly m u (g u a)) (s : State) : TilesOnly m s (l.foldl g s) :=
  List.foldlRecOn l g (TilesOnly.refl m s) fun u hu a ha => hu.trans (hg u a ha)

/-- What an update keeps of any tile, it keeps of every tile of the state. -/
theorem keeps_modTile {β : Type} {π : Tile → β} {f : Tile → Tile} (hf : ∀ T, π (f T) = π T) (s : State) (t u : Nat) :
    π ((s.modTile t f).tile u) = π (s.tile u) := by
  simp only [State.modTile, State.tile, List.getD_eq_getElem?_getD, List.getElem?_modify]
  cases s.tiles[u]? with
  | none => rfl
  | some T => by_cases h : t = u <;> simp [h, hf]

theorem keeps_foldl {α β : Type} {π : Tile → β} {g : State → α → State} (hg : ∀ u a t, π ((g u a).tile t) = π (u.tile t))
    (l : List α) (s : State) (t : Nat) : π ((l.foldl g s).tile t) = π (s.tile t) :=
  List.foldlRecOn l g (motive := fun u => π (u.tile t) = π (s.tile t)) rfl fun u hu a _ => (hg u a t).trans hu

/-- What the step for one element brings about, and no later step for another undoes, holds in the end. -/
theorem foldl_reaches {σ α : Type} {g : σ → α → σ} {P : σ → Prop} {l : List α} {a : α} (ha : a ∈ l) (est : ∀ u, P (g u a))
    (keep : ∀ u, ∀ b ∈ l, b ≠ a → P u → P (g u b)) (s : σ) : P (l.foldl g s) := by
  obtain ⟨l₁, l₂, rfl⟩ := List.append_of_mem ha
  rw [List.foldl_append, List.foldl_cons]
  refine List.foldlRecOn l₂ g (est _) fun u hu b hb => ?_
  by_cases hab : b = a
  · exact hab ▸ est u
  · exact keep u b (by simp [hb]) hab hu

/-! ## HBM without a struck line -/

section
variable {s : State} (hbad : s.bad = []) (hoff : ∀ i, (s.stack i).offline = false)
include hbad hoff

theorem hbmRead_sound (a n : Nat) : s.hbmRead a n = (s.hbmBytes a n, s, none) := by
  have hclean : s.struckLines a n = [] := by simp [State.struckLines, State.struckAt, hbad, hoff]
  simp [State.hbmRead, hclean]

omit hbad in
theorem hbmWrite_sound (a : Nat) {l : List Byte} (hl : l ≠ []) : s.hbmWrite a l = (s.hbmWriteRaw a l, none) := by
  have hno : s.firstOffline a l.length = none := by simp [State.firstOffline, hoff]
  simp [State.hbmWrite, hl, hno]

end

/-! ## The members of a clause, held and released -/

theorem members_of_clauseRec {s : State} {k : Nat} {r : ClauseRec} (h : s.clauseRec k = some r) : s.members k = r.members := by
  simp [State.members, h]

theorem tilesOnly_holdClause (s : State) (c : Nat) (on : Bool) : TilesOnly (s.members c) s (s.holdClause c on) :=
  tilesOnly_foldl (fun u _ ht => tilesOnly_modTile ht u _) s

theorem holdClause_keeps {β : Type} {π : Tile → β} {on : Bool} (hπ : ∀ T, π { T with held := on } = π T) (s : State) (c t : Nat) :
    π ((s.holdClause c on).tile t) = π (s.tile t) :=
  keeps_foldl (fun u a t => keeps_modTile hπ u a t) _ s t

theorem holdClause_held {s : State} {c t : Nat} (on : Bool) (ht : t ∈ s.members c) (hlen : t < s.tiles.length) :
    ((s.holdClause c on).tile t).held = on := by
  have := foldl_reaches (g := fun (u : State) t => u.modTile t fun T => { T with held := on })
    (P := fun u => t < u.tiles.length → (u.tile t).held = on) ht
    (fun u hu => by rw [tile_modTile_self u t _ (by simpa using hu)])
    (fun u b _ hb hP hu => by
      rw [tile_modTile_ne u b t _ hb.symm]
      exact hP (by simpa using hu)) s
  exact this ((tilesOnly_holdClause s c on).lt_iff.mpr hlen)

/-- A held member differs from what it was in being held alone. -/
theorem tile_holdClause {s : State} {c t : Nat} (on : Bool) (ht : t ∈ s.members c) (hlen : t < s.tiles.length) :
    (s.holdClause c on).tile t = { s.tile t with held := on } := by
  have hkeep := holdClause_keeps (π := fun T => { T with held := on }) (on := on) (fun _ => rfl) s c t
  have hheld := holdClause_held on ht hlen
  generalize (s.holdClause c on).tile t = T at hkeep hheld
  subst hheld
  exact hkeep

/-! ## SAVE_CTX -/

theorem exec_saveCtx {s : State} {id : Nat} {d : Started} (h : Takes s id 0x05 d)
    (hafter : s.afterApply id (d.param0 % 64) = false) :
    exec (.saveCtx id) s =
      .next (if (s.clauseRec (d.param0 % 64)).isNone then s.finish id stWeaveNone 0 0 0
        else if s.settled (d.param0 % 64) then (s.closeFrozen (d.param0 % 64)).saveNow id (d.param0 % 64) d
        else s.holdClause (d.param0 % 64) true) := by
  change Host.Outcome.next (s.withCmd id 0x05 _) = _
  rw [withCmd_takes h]
  simp [hafter]

/-- A clause with something outstanding is held. -/
theorem exec_saveCtx_waits {s : State} {id : Nat} {d : Started} {r : ClauseRec} (h : Takes s id 0x05 d)
    (hafter : s.afterApply id (d.param0 % 64) = false) (hrec : s.clauseRec (d.param0 % 64) = some r)
    (hset : s.settled (d.param0 % 64) = false) : exec (.saveCtx id) s = .next (s.holdClause (d.param0 % 64) true) := by
  simp [exec_saveCtx h hafter, hrec, hset]

/-- The save of a settled clause that no fault has frozen. -/
theorem exec_saveCtx_settled {s : State} {id : Nat} {d : Started} {r : ClauseRec} (h : Takes s id 0x05 d)
    (hafter : s.afterApply id (d.param0 % 64) = false) (hrec : s.clauseRec (d.param0 % 64) = some r)
    (hset : s.settled (d.param0 % 64) = true) (hfro : s.frozen (d.param0 % 64) = false) :
    exec (.saveCtx id) s = .next (s.saveNow id (d.param0 % 64) d) := by
  simp [exec_saveCtx h hafter, hrec, hset, State.closeFrozen, hfro]

/-- A region that holds an image holds its first bytes. -/
theorem ctxRegion_mono {s : State} {c a m n : Nat} (hmn : m ≤ n) (h : s.ctxRegion c a n = true) : s.ctxRegion c a m = true := by
  simp only [State.ctxRegion, Region.holds, List.any_eq_true, Bool.and_eq_true, decide_eq_true_eq] at h ⊢
  obtain ⟨r, hr, hkind, hlo, hhi⟩ := h
  exact ⟨r, hr, hkind, hlo, by omega⟩

theorem ctxRec_length_ge (typ idx : Nat) (b : List Byte) : 64 ≤ (ctxRec typ idx b).length := by
  simp only [ctxRec, fitTo, zeros, roundUp, List.length_append, leBytes_length, List.length_replicate, List.length_take]
  omega

/-- An image holds its 128 header bytes (R418). -/
theorem ctxImage_length_ge (s : State) (c n : Nat) : 128 ≤ (s.ctxImage c n).length := by
  have := ctxRec_length_ge 1 0 ((((s.clauseSt c).map (·.gens)).getD []).flatMap (leBytes 4))
  simp only [State.ctxImage, List.length_append, leBytes_length, zeros, List.length_replicate, List.length_cons, List.length_nil]
  omega

theorem saveNow_misaligned {s : State} {id c : Nat} {d : Started} (ha : d.le 8 8 % 64 ≠ 0) :
    s.saveNow id c d = (s.holdClause c false).cmdArg id 8 := by
  simp [State.saveNow, ha]

/-- A hold moves no region of the clause. -/
theorem ctxRegion_holdClause (s : State) (c : Nat) (on : Bool) (a n : Nat) :
    (s.holdClause c on).ctxRegion c a n = s.ctxRegion c a n := by
  rw [(tilesOnly_holdClause s c on).frame]
  rfl

theorem sramBytesOk_holdClause (s : State) (c : Nat) (on : Bool) (n : Nat) :
    (s.holdClause c on).sramBytesOk c n = s.sramBytesOk c n := by
  rw [(tilesOnly_holdClause s c on).frame]
  rfl

theorem hbmAsleep_holdClause (s : State) (c : Nat) (on : Bool) (a n : Nat) :
    (s.holdClause c on).hbmAsleep a n = s.hbmAsleep a n := by
  rw [(tilesOnly_holdClause s c on).frame]
  rfl

section
variable {s : State} {id c : Nat} {d : Started} {img : List Byte} (himg : img = (s.holdClause c false).ctxImage c (d.le 0x18 4))
  (halign : d.le 8 8 % 64 = 0) (hok : s.sramBytesOk c (d.le 0x18 4) = true) (hreg : s.ctxRegion c (d.le 8 8) img.length = true)
include himg halign hok hreg

theorem saveNow_short (hshort : d.le 0x10 8 < img.length) :
    s.saveNow id c d = (s.holdClause c false).finish id stCmdArg 0x10 img.length 0 := by
  have hheader := ctxRegion_mono (himg ▸ ctxImage_length_ge _ c _) hreg
  subst himg
  simp [State.saveNow, ctxRegion_holdClause, sramBytesOk_holdClause, halign, hok, hheader, hreg, hshort]

theorem saveNow_writes (hroom : img.length ≤ d.le 0x10 8) (hawake : s.hbmAsleep (d.le 8 8) img.length = false)
    (hoff : ∀ i, (s.stack i).offline = false) (hkeep : bitAt d.param0 8 = false) :
    s.saveNow id c d = ((s.holdClause c false).hbmWriteRaw (d.le 8 8) img).finish id stOK img.length 0 0 := by
  have hlen := himg ▸ ctxImage_length_ge _ c _
  have hheader := ctxRegion_mono hlen hreg
  have hne : img ≠ [] := List.ne_nil_of_length_pos (by omega)
  have hoff' : ∀ i, ((s.holdClause c false).stack i).offline = false := by
    rw [(tilesOnly_holdClause s c false).frame]
    exact hoff
  have hwrite := hbmWrite_sound hoff' (d.le 8 8) hne
  subst himg
  simp [State.saveNow, ctxRegion_holdClause, sramBytesOk_holdClause, hbmAsleep_holdClause, halign, hok, hheader, hreg,
    Nat.not_lt.mpr hroom, hawake, hwrite, hkeep]

end

/-! ## The stages of a restore -/

/-- A member made ready for a restore: its run cut, its output tile discarded, its contents gone. -/
def State.clearMember (s : State) (t : Nat) : State := ((s.cutRun t).discardTile t).modTile t Tile.clearForCtx

/-- The spin events that name no tile of the list: those that a restore leaves on their way. -/
def State.dropSpins (s : State) (m : List Nat) : State :=
  { s with spins := s.spins.filter fun e => !(m.contains e.tile || m.contains e.target) }

/-- A clause's tiles cleared for a restore. -/
def State.clearMembers (s : State) (m : List Nat) : State := m.foldl State.clearMember (s.dropSpins m)

/-- The clause as a restore leaves it, in the run of the restoring command. -/
def ClauseSt.restored (c id : Nat) (x : CtxImage) (now : Nat) : ClauseSt :=
  { ClauseSt.fresh c with gens := x.gens, run := some { cmd := id, args := [], tStart := now, gloss := none } }

/-- The tiles of a restore onto as many members. -/
def State.restoreTiles (s : State) (c : Nat) (x : CtxImage) : State :=
  let m := s.members c
  (((s.clearMembers m).restoreSame m x).restoreOsier c x).sramWrite m 0 x.sram

theorem restoreNow_same {s : State} {id c : Nat} {x : CtxImage} (hx : x.members = (s.members c).length) :
    s.restoreNow id c x = (s.restoreTiles c x).modClause c fun _ => ClauseSt.restored c id x (s.restoreTiles c x).timer := by
  simp only [State.restoreNow, hx, if_true]
  rfl

theorem tilesOnly_tally {m : List Nat} {t : Nat} (ht : t ∈ m) (s : State) (ev n : Nat) : TilesOnly m s (s.tally t ev n) :=
  tilesOnly_modTile ht s _

theorem tilesOnly_cutRun {m : List Nat} {t : Nat} (ht : t ∈ m) (s : State) : TilesOnly m s (s.cutRun t) := by
  have hidle (u : State) : TilesOnly m u (u.noteIdle t) := by
    simp only [State.noteIdle]
    split
    · exact tilesOnly_modTile ht u _
    · exact TilesOnly.refl m u
  simp only [State.cutRun]
  split
  · exact (tilesOnly_tally ht s _ _).trans (hidle _)
  · exact hidle s

theorem tilesOnly_discardTile {m : List Nat} {t : Nat} (ht : t ∈ m) (s : State) : TilesOnly m s (s.discardTile t) := by
  have hrest (u : State) : TilesOnly m u ((u.tally t 0x01 (u.tile t).pendTicks).modTile t fun T => { T with pendTicks := 0 }) :=
    (tilesOnly_tally ht u _ _).trans (tilesOnly_modTile ht _ _)
  simp only [State.discardTile]
  split
  · exact (tilesOnly_tally ht s _ _).trans (hrest _)
  · exact hrest s

theorem tilesOnly_clearMember {m : List Nat} {t : Nat} (ht : t ∈ m) (s : State) : TilesOnly m s (s.clearMember t) :=
  ((tilesOnly_cutRun ht s).trans (tilesOnly_discardTile ht _)).trans (tilesOnly_modTile ht _ _)

/-- A cleared member has its 64 slots. -/
theorem clearMember_slots {s : State} {t : Nat} (ht : t < s.tiles.length) : ((s.clearMember t).tile t).slots.length = 64 := by
  have hcut := (tilesOnly_cutRun (List.mem_singleton_self t) s).trans (tilesOnly_discardTile (List.mem_singleton_self t) _)
  rw [State.clearMember, tile_modTile_self _ t _ (hcut.lt_iff.mpr ht)]
  simp [Tile.clearForCtx, Tile.emptySlots]

theorem tilesOnly_clearMembers (s : State) (m : List Nat) : TilesOnly m (s.dropSpins m) (s.clearMembers m) :=
  tilesOnly_foldl (fun u _ ht => tilesOnly_clearMember ht u) _

theorem clearMembers_slots {s : State} {m : List Nat} {t : Nat} (ht : t ∈ m) (hlen : t < s.tiles.length) :
    ((s.clearMembers m).tile t).slots.length = 64 := by
  have hreach := foldl_reaches (P := fun u : State => t < u.tiles.length → (u.tile t).slots.length = 64) ht
    (fun u hu => clearMember_slots ((tilesOnly_clearMember (List.mem_singleton_self t) u).lt_iff.mp hu))
    (fun u b _ hb hP hu => by
      have honly := tilesOnly_clearMember (List.mem_singleton_self b) u
      rw [honly.others t (by simpa using hb.symm)]
      exact hP (honly.lt_iff.mp hu)) (s.dropSpins m)
  exact hreach ((tilesOnly_clearMembers s m).lt_iff.mpr hlen)

/-! ## Contents and phrases put back -/

/-- The items, stop counts, arrivals and array of a member put back. -/
def State.putContents (s : State) (e : Nat × TileCtx) : State :=
  s.modTile e.1 fun T => { T with wq := e.2.items, partc := e.2.partc, arr := e.2.arr, au := T.au.restore e.2.au }

/-- A saved phrase put back on the member of its index. -/
def State.putPhrase (m : List Nat) (s : State) (p : Nat × Nat × Phrase) : State := s.setPhrase (m.getD p.1 0) p.2.1 (some p.2.2)

theorem restoreSame_eq (s : State) (m : List Nat) (x : CtxImage) :
    s.restoreSame m x = x.phrases.foldl (State.putPhrase m) ((m.zip x.tiles).foldl State.putContents s) := rfl

theorem getD_mem {m : List Nat} {i : Nat} (h : i < m.length) : m.getD i 0 ∈ m := by
  simp [List.getD_eq_getElem?_getD, h]

/-- No two indices of a list without repetition give one member. -/
theorem getD_inj {m : List Nat} {i j : Nat} (hm : m.Nodup) (hi : i < m.length) (hj : j < m.length)
    (h : m.getD i 0 = m.getD j 0) : i = j := by
  simp only [List.getD_eq_getElem?_getD, List.getElem?_eq_getElem hi, List.getElem?_eq_getElem hj, Option.getD_some] at h
  exact (List.getElem?_inj hi hm).mp (by rw [List.getElem?_eq_getElem hi, List.getElem?_eq_getElem hj, h])

/-- Elements of one key are the same where no key stands twice. -/
theorem eq_of_nodup_map {α β : Type} {f : α → β} {l : List α} {a b : α} (hl : (l.map f).Nodup) (ha : a ∈ l) (hb : b ∈ l)
    (h : f a = f b) : a = b := by
  obtain ⟨i, hi⟩ := List.mem_iff_getElem?.mp ha
  obtain ⟨j, hj⟩ := List.mem_iff_getElem?.mp hb
  obtain ⟨hlt, -⟩ := List.getElem?_eq_some_iff.mp hi
  have hij : i = j := (List.getElem?_inj (by simpa using hlt) hl).mp (by simp only [List.getElem?_map, hi, hj, Option.map_some, h])
  exact Option.some.inj (hi.symm.trans (hij ▸ hj))

theorem tilesOnly_putContents {m : List Nat} {e : Nat × TileCtx} (he : e.1 ∈ m) (s : State) : TilesOnly m s (s.putContents e) :=
  tilesOnly_modTile he s _

theorem tilesOnly_putPhrase {m : List Nat} {p : Nat × Nat × Phrase} (hp : p.1 < m.length) (s : State) :
    TilesOnly m s (State.putPhrase m s p) :=
  tilesOnly_modTile (getD_mem hp) s _

theorem tilesOnly_restoreSame {m : List Nat} {x : CtxImage} (hp : ∀ e ∈ x.phrases, e.1 < m.length) (s : State) :
    TilesOnly m s (s.restoreSame m x) :=
  (tilesOnly_foldl (fun u _ he => tilesOnly_putContents (List.of_mem_zip he).1 u) s).trans
    (tilesOnly_foldl (fun u p h => tilesOnly_putPhrase (hp p h) u) _)

/-- The items, stop counts and arrivals of a tile. -/
def Tile.queued (T : Tile) : List WorkItem × List Nat × List (List Nat) := (T.wq, T.partc, T.arr)

theorem queued_eq {T : Tile} {w : List WorkItem} {p : List Nat} {a : List (List Nat)} :
    T.queued = (w, p, a) ↔ T.wq = w ∧ T.partc = p ∧ T.arr = a := by
  simp [Tile.queued]

theorem putPhrase_queued (m : List Nat) (s : State) (p : Nat × Nat × Phrase) (t : Nat) :
    ((State.putPhrase m s p).tile t).queued = (s.tile t).queued :=
  keeps_modTile (π := Tile.queued) (f := fun T => { T with slots := T.slots.set p.2.1 (some p.2.2) }) (fun _ => rfl) s _ t

theorem putContents_slots (s : State) (e : Nat × TileCtx) (t : Nat) :
    ((s.putContents e).tile t).slots.length = (s.tile t).slots.length :=
  keeps_modTile (π := fun T => T.slots.length)
    (f := fun T => { T with wq := e.2.items, partc := e.2.partc, arr := e.2.arr, au := T.au.restore e.2.au }) (fun _ => rfl) s e.1 t

/-- Each member takes over the contents of its index. -/
theorem putContents_queued {s : State} {m : List Nat} {l : List TileCtx} {i t : Nat} {c : TileCtx} (hm : m.Nodup)
    (hi : m[i]? = some t) (hc : l[i]? = some c) (ht : t < s.tiles.length) :
    (((m.zip l).foldl State.putContents s).tile t).queued = (c.items, c.partc, c.arr) := by
  have hmem : (t, c) ∈ m.zip l := List.mem_of_getElem? (i := i) (by simp [List.getElem?_zip_eq_some, hi, hc])
  have hone : ∀ b ∈ m.zip l, b ≠ (t, c) → t ≠ b.1 := by
    rintro ⟨t', c'⟩ hb hne rfl
    obtain ⟨j, hj⟩ := List.mem_iff_getElem?.mp hb
    obtain ⟨hjm, hjl⟩ := List.getElem?_zip_eq_some.mp hj
    obtain ⟨hilt, -⟩ := List.getElem?_eq_some_iff.mp hi
    obtain rfl : i = j := (List.getElem?_inj hilt hm).mp (hi.trans hjm.symm)
    exact hne (congrArg (Prod.mk t) (Option.some.inj (hjl.symm.trans hc)))
  have hreach := foldl_reaches (g := State.putContents)
    (P := fun u : State => t < u.tiles.length → (u.tile t).queued = (c.items, c.partc, c.arr)) hmem
    (fun u hu => by
      rw [State.putContents, tile_modTile_self u t _ (by simpa [State.putContents] using hu)]
      rfl)
    (fun u b hb hne hP hu => by
      rw [State.putContents, tile_modTile_ne u b.1 t _ (hone b hb hne)]
      exact hP (by simpa [State.putContents] using hu)) s
  exact hreach ((tilesOnly_foldl (fun u _ he => tilesOnly_putContents (List.of_mem_zip he).1 u) s).lt_iff.mpr ht)

theorem phraseAt_setPhrase_self {s : State} {t p : Nat} (ph : Option Phrase) (ht : t < s.tiles.length)
    (hp : p < (s.tile t).slots.length) : (s.setPhrase t p ph).phraseAt t p = ph := by
  rw [State.phraseAt, State.setPhrase, tile_modTile_self s t _ ht]
  simp [List.getD_eq_getElem?_getD, hp]

theorem phraseAt_setPhrase_ne {s : State} {t p u q : Nat} (ph : Option Phrase) (h : (t, p) ≠ (u, q)) :
    (s.setPhrase t p ph).phraseAt u q = s.phraseAt u q := by
  by_cases hu : u = t
  · subst hu
    have hq : p ≠ q := fun hq => h (by rw [hq])
    exact keeps_modTile (π := fun T => T.slots.getD q none) (fun T => by simp [List.getD_eq_getElem?_getD, hq]) s u u
  · rw [State.phraseAt, State.setPhrase, tile_modTile_ne s t u _ hu]
    rfl

theorem slots_length_setPhrase (s : State) (t p : Nat) (ph : Option Phrase) (u : Nat) :
    ((s.setPhrase t p ph).tile u).slots.length = (s.tile u).slots.length :=
  keeps_modTile (π := fun T => T.slots.length) (fun T => by simp) s t u

/-- Each phrase stands where it was saved. -/
theorem putPhrase_phraseAt {s : State} {m : List Nat} {l : List (Nat × Nat × Phrase)} {e : Nat × Nat × Phrase} (hm : m.Nodup)
    (hl : (l.map fun e => (e.1, e.2.1)).Nodup) (hidx : ∀ e ∈ l, e.1 < m.length) (he : e ∈ l)
    (ht : m.getD e.1 0 < s.tiles.length) (hp : e.2.1 < (s.tile (m.getD e.1 0)).slots.length) :
    (l.foldl (State.putPhrase m) s).phraseAt (m.getD e.1 0) e.2.1 = some e.2.2 := by
  have hone : ∀ b ∈ l, b ≠ e → (m.getD b.1 0, b.2.1) ≠ (m.getD e.1 0, e.2.1) := by
    intro b hb hne heq
    obtain ⟨htile, hslot⟩ := Prod.mk.inj heq
    have hb1 := hidx b hb
    have he1 := hidx e he
    have hsame : b.1 = e.1 := getD_inj hm hb1 he1 htile
    exact hne (eq_of_nodup_map hl hb he (by rw [hsame, hslot]))
  have hreach := foldl_reaches (g := State.putPhrase m)
    (P := fun u : State => m.getD e.1 0 < u.tiles.length ∧ e.2.1 < (u.tile (m.getD e.1 0)).slots.length →
      u.phraseAt (m.getD e.1 0) e.2.1 = some e.2.2) he
    (fun u hu => by
      simp only [State.putPhrase, setPhrase_tiles_length, slots_length_setPhrase] at hu
      exact phraseAt_setPhrase_self _ hu.1 hu.2)
    (fun u b hb hne hP hu => by
      simp only [State.putPhrase, setPhrase_tiles_length, slots_length_setPhrase] at hu
      exact (phraseAt_setPhrase_ne _ (hone b hb hne)).trans (hP hu)) s
  refine hreach ⟨?_, ?_⟩
  · rwa [(tilesOnly_foldl (fun u p h => tilesOnly_putPhrase (hidx p h) u) s).length]
  · rwa [keeps_foldl (π := fun T => T.slots.length) (g := State.putPhrase m) (fun u p t => slots_length_setPhrase u _ _ _ t) l s]

/-! ## Osier arrays and SRAM put back -/

theorem osierMember_mem {s : State} {m : List Nat} {e : Nat × Nat} (he : e ∈ s.osierMembers m) : e.2 ∈ m := by
  simp only [State.osierMembers, List.mem_map, List.mem_filter] at he
  obtain ⟨⟨t, i⟩, ⟨ht, -⟩, rfl⟩ := he
  exact (List.mem_zipIdx' ht).2 ▸ List.getElem_mem _

/-- What stands in a list zipped with another comes from that other. -/
theorem exists_of_mem_zipWith {α β γ : Type} {f : α → β → γ} {l : List α} {l' : List β} {z : γ} (hz : z ∈ List.zipWith f l l') :
    ∃ a, ∃ b ∈ l', f a b = z := by
  obtain ⟨i, hi⟩ := List.mem_iff_getElem?.mp hz
  obtain ⟨a, b, -, hb, hab⟩ := List.getElem?_zipWith_eq_some.mp hi
  exact ⟨a, b, List.mem_of_getElem? hb, hab⟩

/-- A saved array goes to a member (R219). -/
theorem osierMap_mem {s : State} {c : Nat} {x : CtxImage} {e : Nat × Nat} (he : e ∈ s.osierMap c x) : e.2 ∈ s.members c := by
  obtain ⟨_, t, ht, rfl⟩ := exists_of_mem_zipWith he
  exact osierMember_mem (e := t) ht

/-- The saved arrays put back, their sums still to be derived. -/
def State.putOsier (s : State) (c : Nat) (x : CtxImage) : State :=
  (List.zipWith (fun o e => (e.2, o.2.2)) x.osier (s.osierMap c x)).foldl (fun s e => s.modOs e.1 fun o => o.restore e.2) s

theorem tilesOnly_putOsier (s : State) (c : Nat) (x : CtxImage) : TilesOnly (s.members c) s (s.putOsier c x) :=
  tilesOnly_foldl (fun u e he => by
    obtain ⟨_, b, hb, rfl⟩ := exists_of_mem_zipWith he
    exact tilesOnly_modTile (osierMap_mem hb) u _) s

theorem tilesOnly_restoreOsier (s : State) (c : Nat) (x : CtxImage) : TilesOnly (s.members c) s (s.restoreOsier c x) := by
  have hput := tilesOnly_putOsier s c x
  refine hput.trans (tilesOnly_foldl (fun u t ht => ?_) _)
  exact tilesOnly_modTile (hput.members c ▸ ht) u _

theorem restoreOsier_keeps {β : Type} {π : Tile → β} (hπ : ∀ T o, π { T with os := o } = π T) (s : State) (c : Nat) (x : CtxImage)
    (t : Nat) : π ((s.restoreOsier c x).tile t) = π (s.tile t) :=
  (keeps_foldl (fun u a t => keeps_modTile (fun T => hπ T _) u a t) _ _ t).trans
    (keeps_foldl (fun u a t => keeps_modTile (fun T => hπ T _) u a.1 t) _ s t)

theorem sramWrite_keeps {β : Type} {π : Tile → β} (hπ : ∀ T m, π { T with sram := m } = π T) (s : State) (m : List Nat) (a : Nat)
    (l : List Byte) (t : Nat) : π ((s.sramWrite m a l).tile t) = π (s.tile t) :=
  keeps_foldl (fun u _ t => keeps_modTile (fun T => hπ T _) u _ t) _ s t

/-- A write that lies in a clause's address space touches its members alone. -/
theorem tilesOnly_sramWrite {m : List Nat} {l : List Byte} (hl : l.length ≤ m.length * sramSize) (s : State) :
    TilesOnly m s (s.sramWrite m 0 l) := by
  refine tilesOnly_foldl (fun u p hp => tilesOnly_modTile (getD_mem ?_) u _) s
  simp only [sramParts] at hp
  split at hp
  · cases hp
  · simp only [List.mem_map, List.mem_range] at hp
    obtain ⟨j, hj, rfl⟩ := hp
    simp only [sramSize] at hl hj ⊢
    omega

/-! ## The tiles after a restore -/

section
variable {s : State} {c : Nat} {x : CtxImage}

/-- Arrays and SRAM put back leave everything else of a tile. -/
theorem restoreTiles_keeps {β : Type} {π : Tile → β} (hos : ∀ T o, π { T with os := o } = π T)
    (hsram : ∀ T m, π { T with sram := m } = π T) (t : Nat) :
    π ((s.restoreTiles c x).tile t) = π (((s.clearMembers (s.members c)).restoreSame (s.members c) x).tile t) :=
  (sramWrite_keeps hsram _ _ _ _ t).trans (restoreOsier_keeps hos _ c x t)

/-- Each member has its items, stop counts and arrivals back (R179). -/
theorem restoreTiles_queued (hm : (s.members c).Nodup) {i t : Nat} {C : TileCtx} (hi : (s.members c)[i]? = some t)
    (hC : x.tiles[i]? = some C) (ht : t < s.tiles.length) : ((s.restoreTiles c x).tile t).queued = (C.items, C.partc, C.arr) := by
  rw [restoreTiles_keeps (π := Tile.queued) (fun _ _ => rfl) (fun _ _ => rfl), restoreSame_eq,
    keeps_foldl (putPhrase_queued (s.members c))]
  exact putContents_queued hm hi hC ((tilesOnly_clearMembers s _).lt_iff.mpr ht)

variable (hidx : ∀ e ∈ x.phrases, e.1 < (s.members c).length)
include hidx

/-- A restore touches the members' tiles alone. -/
theorem tilesOnly_restoreTiles (hsram : x.sram.length ≤ (s.members c).length * sramSize) :
    TilesOnly (s.members c) (s.dropSpins (s.members c)) (s.restoreTiles c x) := by
  have hsame := (tilesOnly_clearMembers s (s.members c)).trans (tilesOnly_restoreSame hidx _)
  have hosier := tilesOnly_restoreOsier ((s.clearMembers (s.members c)).restoreSame (s.members c) x) c x
  rw [hsame.members c] at hosier
  exact (hsame.trans hosier).trans (tilesOnly_sramWrite hsram _)

/-- Each saved phrase is back in its slot (R179). -/
theorem restoreTiles_phraseAt (hm : (s.members c).Nodup) (hin : ∀ t ∈ s.members c, t < s.tiles.length)
    (hl : (x.phrases.map fun e => (e.1, e.2.1)).Nodup) {e : Nat × Nat × Phrase} (he : e ∈ x.phrases) (hslot : e.2.1 < 64) :
    (s.restoreTiles c x).phraseAt ((s.members c).getD e.1 0) e.2.1 = some e.2.2 := by
  have hmem := getD_mem (hidx e he)
  have hput := tilesOnly_foldl (l := (s.members c).zip x.tiles)
    (fun u _ h => tilesOnly_putContents (List.of_mem_zip h).1 u) (s.clearMembers (s.members c))
  rw [State.phraseAt, restoreTiles_keeps (π := fun T => T.slots.getD e.2.1 none) (fun _ _ => rfl) (fun _ _ => rfl),
    restoreSame_eq]
  refine putPhrase_phraseAt hm hl hidx he ?_ ?_
  · exact ((tilesOnly_clearMembers s _).trans hput).lt_iff.mpr (hin _ hmem)
  · rwa [keeps_foldl (π := fun T => T.slots.length) putContents_slots, clearMembers_slots hmem (hin _ hmem)]

end

/-! ## RESTORE_CTX -/

/-- Whether a RESTORE_CTX finds its clause at work, or a member held (R410, R533; log entry 44). -/
def State.ctxBusy (s : State) (c : Nat) : Bool :=
  s.clauseTaken c || (s.members c).any fun t => (s.tile t).dbg.held || (s.tile t).held || s.mbHeld t

theorem ctxBusy_iff {s : State} {c : Nat} {r : ClauseRec} (hrec : s.clauseRec c = some r) :
    s.ctxBusy c = true ↔ s.clauseTaken c = true ∨
      ∃ t ∈ r.members, (s.tile t).dbg.held = true ∨ (s.tile t).held = true ∨ s.mbHeld t = true := by
  simp [State.ctxBusy, members_of_clauseRec hrec, or_assoc]

theorem ctxBusy_eq_false {s : State} {c : Nat} {r : ClauseRec} (hrec : s.clauseRec c = some r) (hfree : s.clauseTaken c = false)
    (hheld : ∀ t ∈ r.members, (s.tile t).dbg.held = false ∧ (s.tile t).held = false ∧ s.mbHeld t = false) :
    s.ctxBusy c = false := by
  rw [← Bool.not_eq_true, ctxBusy_iff hrec]
  rintro (htaken | ⟨t, ht, hany⟩)
  · simp [hfree] at htaken
  · simp [hheld t ht] at hany

theorem exec_restoreCtx {s : State} {id : Nat} {d : Started} (h : Takes s id 0x06 d) :
    exec (.restoreCtx id) s =
      .next (if s.alarmed then s.finish id stAlarmed 0 0 0
        else if s.afterApply id (d.param0 % 64) then s
        else if (s.clauseRec (d.param0 % 64)).isNone then s.finish id stWeaveNone 0 0 0
        else if s.ctxBusy (d.param0 % 64) then s.finish id stWeaveBusy 0 0 0
        else s.restoreCheck id (d.param0 % 64) (d.le 8 8) (d.le 0x10 8)) := by
  change Host.Outcome.next (s.withCmd id 0x06 _) = _
  rw [withCmd_takes h]
  rfl

section
variable {s : State} {id : Nat} {d : Started} {r : ClauseRec} (h : Takes s id 0x06 d) (halarm : s.alarmed = false)
  (hafter : s.afterApply id (d.param0 % 64) = false) (hrec : s.clauseRec (d.param0 % 64) = some r)
include h halarm hafter hrec

theorem exec_restoreCtx_busy (hbusy : s.ctxBusy (d.param0 % 64) = true) :
    exec (.restoreCtx id) s = .next (s.finish id stWeaveBusy 0 0 0) := by
  simp [exec_restoreCtx h, halarm, hafter, hrec, hbusy]

theorem exec_restoreCtx_free (hfree : s.ctxBusy (d.param0 % 64) = false) :
    exec (.restoreCtx id) s = .next (s.restoreCheck id (d.param0 % 64) (d.le 8 8) (d.le 0x10 8)) := by
  simp [exec_restoreCtx h, halarm, hafter, hrec, hfree]

end

section
variable {s : State} {id c a n : Nat} (huser : a + n ≤ hbmUserEnd) (hawake : s.hbmAsleep a n = false) (hbad : s.bad = [])
  (hoff : ∀ i, (s.stack i).offline = false)
include huser hawake hbad hoff

/-- What spells no image is refused. -/
theorem restoreCheck_unread (hread : ctxRead (s.hbmBytes a n) = none) :
    s.restoreCheck id c a n = s.finish id stCtxShape 0 0 0 := by
  simp [State.restoreCheck, userHbm, huser, hawake, hbmRead_sound hbad hoff, hread]

/-- An image of the clause's program that fits it is restored where the keys are those saved. -/
theorem restoreCheck_fits {x : CtxImage} (hread : ctxRead (s.hbmBytes a n) = some x)
    (hprog : slice (s.hbmBytes a n) 0x20 32 = s.progDigest c) (hfits : s.ctxFits c x = true) (hosier : s.osierFits c x = true) :
    s.restoreCheck id c a n = if s.ctxKeysOk c x then s.restoreNow id c x else s.finish id stCtxKey 0 0 0 := by
  cases hkeys : s.ctxKeysOk c x <;>
    simp [State.restoreCheck, userHbm, huser, hawake, hbmRead_sound hbad hoff, hread, hprog, hfits, hosier, hkeys]

end

theorem ctxRead_bad_magic {b : List Byte} (h : slice b 0 6 ≠ [0x4E, 0x43, 0x58, 0x31, 1, 0]) : ctxRead b = none := by
  rw [ctxRead, if_pos]
  simp only [ne_eq, h, not_false_eq_true, decide_true, Bool.true_or]

theorem ctxFits_sram {s : State} {c : Nat} {x : CtxImage} (h : s.ctxFits c x = true) :
    x.sram.length ≤ (s.members c).length * sramSize := by
  simp only [State.ctxFits, Bool.and_eq_true, decide_eq_true_eq] at h
  exact h.1

/-- The clause of a restore onto as many members is in the run of the restoring command, its stops at the saved generations. -/
theorem restoreNow_clauseSt {s : State} {id c : Nat} {x : CtxImage} {y : ClauseSt} (hx : x.members = (s.members c).length)
    (hidx : ∀ e ∈ x.phrases, e.1 < (s.members c).length) (hsram : x.sram.length ≤ (s.members c).length * sramSize)
    (hy : s.clauseSt c = some y) :
    (s.restoreNow id c x).clauseSt c = some (ClauseSt.restored c id x (s.restoreTiles c x).timer) := by
  have hstands : (s.restoreTiles c x).clauseSt c = some y := by
    rw [State.clauseSt, (tilesOnly_restoreTiles hidx hsram).clauses]
    exact hy
  rw [restoreNow_same hx, clauseSt_modClause (c := c) (fun _ => rfl), hstands]
  rfl

/-- Settles O37: a SAVE_CTX from the frame of the hold and of the one write of HBM, a RESTORE_CTX from what each stage of the
restore puts back and what the stages after it keep. -/
theorem contexts : Obligations.Contexts := by
  unfold Obligations.Contexts
  constructor
  · rintro s id _ d r htakes rfl hafter
    have hheld (on : Bool) := tilesOnly_holdClause s (d.param0 % 64) on
    refine ⟨fun hnone => ?_, fun hrec hset => ?_, fun hrec hset hfro hmis => ?_, ?_⟩
    · exact ⟨s.finish id stWeaveNone 0 0 0, by simp [exec_saveCtx htakes hafter, hnone], finish_finished htakes rfl ..⟩
    · rw [exec_saveCtx_waits htakes hafter hrec hset, ← members_of_clauseRec hrec]
      refine ⟨_, rfl, ?_, (hheld true).hbm, fun t => tile_holdClause true, (hheld true).others⟩
      rw [State.cmd, (hheld true).started]
      exact htakes.1.1
    · rw [exec_saveCtx_settled htakes hafter hrec hset hfro, saveNow_misaligned hmis]
      exact ⟨_, rfl, finish_finished htakes (hheld false).started .., (hheld false).hbm⟩
    · rintro _ img hrec hset hfro rfl himg halign hwhole hfits hreg
      rw [exec_saveCtx_settled htakes hafter hrec hset hfro]
      rw [← members_of_clauseRec hrec] at hfits ⊢
      have hok : s.sramBytesOk (d.param0 % 64) (d.le 0x18 4) = true := by simp [State.sramBytesOk, hwhole, hfits]
      refine ⟨fun hshort => ?_, fun hroom hawake hbad hoff hkeep => ?_⟩
      · rw [saveNow_short himg halign hok hreg hshort]
        exact ⟨_, rfl, finish_finished htakes (hheld false).started .., (hheld false).hbm⟩
      · rw [saveNow_writes himg halign hok hreg hroom hawake hoff hkeep]
        refine ⟨_, rfl, finish_finished htakes (hheld false).started .., fun t p => ?_, fun t => holdClause_held false, fun b => ?_⟩
        · exact holdClause_keeps (π := fun T => T.slots.getD p none) (fun _ => rfl) s _ t
        · have hbyte := hbmWriteRaw_byte ((hheld false).bad.trans hbad) (d.le 8 8) img b
          rwa [State.hbmByte, State.hbmByte, (hheld false).hbm] at hbyte
  · rintro s id _ d r htakes rfl
    refine ⟨fun halarm => ?_, fun halarm hafter hnone => ?_, fun halarm hafter hrec hbusy => ?_, ?_⟩
    · exact ⟨s.finish id stAlarmed 0 0 0, by simp [exec_restoreCtx htakes, halarm], finish_finished htakes rfl ..⟩
    · exact ⟨s.finish id stWeaveNone 0 0 0, by simp [exec_restoreCtx htakes, halarm, hafter, hnone], finish_finished htakes rfl ..⟩
    · rw [exec_restoreCtx_busy htakes halarm hafter hrec ((ctxBusy_iff hrec).mpr hbusy)]
      exact ⟨_, rfl, finish_finished htakes rfl .., rfl⟩
    · rintro x y _ halarm hafter hrec hfree hheld hy huser hawake hbad hoff rfl
      rw [exec_restoreCtx_free htakes halarm hafter hrec (ctxBusy_eq_false hrec hfree hheld)]
      refine ⟨fun hmagic => ?_, fun hread hprog hfits hosier => ?_⟩
      · rw [restoreCheck_unread huser hawake hbad hoff (ctxRead_bad_magic hmagic)]
        exact ⟨_, rfl, finish_finished htakes rfl .., rfl⟩
      rw [restoreCheck_fits huser hawake hbad hoff hread hprog hfits hosier, ← members_of_clauseRec hrec]
      refine ⟨fun hkeys => ?_, fun hkeys hcount _ hnodup hin hslots hphrases => ?_⟩
      · rw [hkeys]
        exact ⟨_, rfl, finish_finished htakes rfl .., rfl⟩
      have hidx := fun e he => (hphrases e he).1
      have hsram := ctxFits_sram hfits
      have honly := tilesOnly_restoreTiles hidx hsram
      have hclause := restoreNow_clauseSt (id := id) hcount hidx hsram hy
      rw [if_pos hkeys]
      refine ⟨_, _, _, rfl, hclause, rfl, rfl, rfl, rfl, ?_⟩
      rw [restoreNow_same hcount]
      refine ⟨honly.hbm, fun e he => ?_, fun i t C hi hC => ?_, honly.others⟩
      · exact restoreTiles_phraseAt hidx hnodup hin hslots he (hphrases e he).2
      · exact queued_eq.mp (restoreTiles_queued hnodup hi hC (hin t (List.mem_of_getElem? hi)))

end Sys2Proof.Machine
end
